-- ==== Sys2Proof/Word.lean ====
section
/-!
DEFINITION. The byte of the serial link and the serial memory, and the plainest arithmetic the data
book's conventions name (00_scope.md, "Numbers": clamp, floor, ceil, saturate).
-/

namespace Sys2Proof

/-- One byte of a frame, of the key queue or of the serial memory. -/
abbrev Byte := BitVec 8

/-- The byte holding the low eight bits of a number. -/
def byte (n : Nat) : Byte := BitVec.ofNat 8 n

/-- "A value said to be clamped to a range is replaced by the nearer end of the range." -/
def clampNat (lo hi n : Nat) : Nat := if n < lo then lo else if hi < n then hi else n

/-- The same clamp on signed values. -/
def clampInt (lo hi n : Int) : Int := if n < lo then lo else if hi < n then hi else n

/-- The least whole number not below `a / b`. -/
def ceilDiv (a b : Nat) : Nat := (a + b - 1) / b

end Sys2Proof
end

