-- ==== Sys2Proof/Config.lean ====
section
/-!
DEFINITION. What the data book fixes for every 2C40 (capacities, limits and times, in tenths of a
millisecond), and the values it leaves open.

A free value is a constant without a body: nothing in Lean can evaluate it, so a theorem that holds
holds whatever it is.
-/

namespace Sys2Proof.Config

/-! ### Capacities -/

/-- R1: the key queue. -/
def keyQueueMax : Nat := 96
/-- R10: the cell list. -/
def cellsMax : Nat := 200
/-- R65: the strike queue, in orders. -/
def strikeQueueMax : Nat := 32
/-- R177: replies and NAKs waiting. -/
def repliesMax : Nat := 8
/-- R175: the longest frame body. -/
def bodyMax : Nat := 56
/-- R130: the check queue. -/
def checkQueueMax : Nat := 8
/-- R124: live words. -/
def wordsMax : Nat := 100
/-- R136: the ignore list. -/
def ignoreMax : Nat := 16
/-- R172: one-shots waiting. -/
def oneShotsMax : Nat := 4
/-- R54: the composite table. -/
def compositesMax : Nat := 32
/-- R118: the tab stop set. -/
def tabsMax : Nat := 24
/-- R143: the text columns of the display. -/
def textColumns : Nat := 28

/-! ### Positions -/

/-- The greatest carriage position, in increments. -/
def carriageEnd : Nat := 1800
/-- R61: overtravel below this count. -/
def overtravelLow : Int := -24
/-- R61: overtravel above this count. -/
def overtravelHigh : Int := 1824
/-- R62: the homing travel that finds no index. -/
def homingTravelMax : Nat := 1900

/-! ### Times, in tenths of a millisecond -/

/-- R175: the gap timer, 20 ms. -/
def gapTime : Nat := 200
/-- R169: the debounce, 8 ms. -/
def debounceTime : Nat := 80
/-- R88: the measurement timer, 10 ms. -/
def measureTime : Nat := 100
/-- R93: the decay timer, 100 ms. -/
def decayTime : Nat := 1000
/-- R148: the word blink, 250 ms. -/
def wordBlinkTime : Nat := 2500
/-- R149: the cursor blink, 400 ms. -/
def cursorBlinkTime : Nat := 4000
/-- R71: SETTLING, 2 ms. -/
def settlingTime : Nat := 20
/-- R72, R63: a wheel turn and each homing wheel phase, 150 ms. -/
def wheelLimit : Nat := 1500
/-- R62: CARRIAGE-SEARCH, 775 ms. -/
def searchLimit : Nat := 7750
/-- R158, R155: the busy poll, 20 ms. -/
def busyLimit : Nat := 200

/-! ### Impression -/

/-- R94: the accumulator above which a group start must wait. -/
def coolingAbove : Nat := 2400
/-- R94: the accumulator at which the cooling latch clears. -/
def coolAt : Nat := 1800

/-! ### Free values -/

/-- How many of the bytes of a failed write the memory holds (R158, R166: new bytes as far as the write reached, old
ones beyond; how far one reached is not stated). The argument is the model's counter of free values. Log entry 4. -/
opaque failedWriteReach : Nat → Nat

/-- What the protect field of the memory's status register holds after a failed status write (R161
states the part's copy, not the memory's field). Log entry 4. -/
opaque failedStatusField : Nat → BitVec 2

/-- Whether a write cut off by a reset still finishes inside the memory (R168: it "may still finish").
Log entry 4. -/
opaque resetWriteLands : Nat → Bool

/-- The rail voltage, in tenths of a volt, found by a measurement that no command brings: the one
that falls due while the command queue is empty. Log entry 3. -/
opaque railReading : Nat → Nat

/-- The one byte in which a SUPPLY report carries a rail reading above 255 tenths of a volt: R185 gives the field
1 byte, and no rule says what stands in it then. The argument is the reading. Log entry 4. -/
opaque longReading : Nat → Byte

end Sys2Proof.Config
end

