-- ==== Sys2Proof/Syntax.lean ====
section
/-!
DEFINITION. The commands of the 2C40: one constructor for each row of spec/opcode_table.json.

A request row (TYPE to RESET) is the event in which the check byte of an accepted frame of that kind
is taken (R177). Its operands are the frame's tag and its body bytes exactly as received, so that a
body of a wrong length, and a value outside its range, can be written down.  The rows NAK_BAD_CHECK,
NAK_BAD_KIND, NAK_BAD_LENGTH, UNKNOWN_KIND, BAD_BYTE, GAP_TIMER and BYTE_RECEIVED are the framer's
other events (R175, R176). A key item row is the Composer taking the item at the head of its key
queue, so it has no operand: the code stands in the queue. The rest are events of the mechanism, the
serial memory, the sensor switches and the timers; those that bring something in carry it.
-/

namespace Sys2Proof

/-- The four sensor inputs (11_sensors_and_the_sounder.md). -/
inductive Sensor where
  | cover | paper | tape | ribbon
  deriving DecidableEq, Repr

/-- The state of a switch: OPEN is the condition that calls for attention. -/
inductive Switch where
  | opened | closed
  deriving DecidableEq, Repr

/-- The commands, in the order of the opcode table. -/
inductive Instr where
  -- requests of the command link
  | type (tag : Byte) (body : List Byte)
  | release (tag : Byte) (body : List Byte)
  | stop (tag : Byte) (body : List Byte)
  | resume (tag : Byte) (body : List Byte)
  | home (tag : Byte) (body : List Byte)
  | feed (tag : Byte) (body : List Byte)
  | setFormat (tag : Byte) (body : List Byte)
  | setTabs (tag : Byte) (body : List Byte)
  | setWatch (tag : Byte) (body : List Byte)
  | setReports (tag : Byte) (body : List Byte)
  | setSound (tag : Byte) (body : List Byte)
  | setSensors (tag : Byte) (body : List Byte)
  | sound (tag : Byte) (body : List Byte)
  | getStatus (tag : Byte) (body : List Byte)
  | getLine (tag : Byte) (body : List Byte)
  | getWord (tag : Byte) (body : List Byte)
  | getFormat (tag : Byte) (body : List Byte)
  | getWheel (tag : Byte) (body : List Byte)
  | showMessage (tag : Byte) (body : List Byte)
  | clearMessage (tag : Byte) (body : List Byte)
  | setContrast (tag : Byte) (body : List Byte)
  | acceptWord (tag : Byte) (body : List Byte)
  | addWord (tag : Byte) (body : List Byte)
  | removeWord (tag : Byte) (body : List Byte)
  | loadWheelBegin (tag : Byte) (body : List Byte)
  | loadWheelPetals (tag : Byte) (body : List Byte)
  | loadWheelEnd (tag : Byte) (body : List Byte)
  | setComposite (tag : Byte) (body : List Byte)
  | saveSettings (tag : Byte) (body : List Byte)
  | setProtect (tag : Byte) (body : List Byte)
  | dictOpen (tag : Byte) (body : List Byte)
  | dictWrite (tag : Byte) (body : List Byte)
  | dictClose (tag : Byte) (body : List Byte)
  | reset (tag : Byte) (body : List Byte)
  -- the framer
  | unknownKind (kind tag : Byte) (body : List Byte)
  | nakBadCheck (kind tag : Byte)
  | nakBadKind (kind tag : Byte)
  | nakBadLength (length : Byte)
  | badByte
  | gapTimer
  -- the transmit line and the RESET pin
  | frameSent
  | resetPin
  -- key items
  | glyphItem
  | spaceItem
  | tabItem
  | returnItem
  | backspaceItem
  | relocateItem
  | boldItem
  | underlineItem
  | marginReleaseItem
  | correctItem
  | wordCorrectItem
  | unassignedItem
  -- the print engine
  | cycleTimeExpiry
  | carriageMoveEnd
  | wheelTurnEnd
  | platenMotionEnd
  | settlingEnd
  | driveEnd
  | brakeEnd
  | carriageMoveLimit
  | wheelTurnLimit
  /-- The levels of the two encoder channels after the edge. -/
  | encoderEdge (a b : Bool)
  | indexPulse
  | carriageSearchLimit
  | homeFlagFound
  /-- The six code notches as they were sensed in the revolution. -/
  | wheelCodeRead (code : BitVec 6)
  | wheelPhaseLimit
  | feedMotionEnd
  -- the sensor inputs
  | rawLevelChange (input : Sensor) (level : Switch)
  | debounceExpiry (input : Sensor)
  -- the impression unit
  /-- The rail voltage found, in tenths of a volt. -/
  | supplyMeasurement (reading : Nat)
  | heatDecay
  -- the display and the sounder
  | wordBlink
  | cursorBlink
  | overlayTimer
  | oneShotEnd
  -- the serial memory
  | transactionEnd
  | writeBusyLimit
  | busyClear
  | detectionPollLimit
  -- the receive line and the RESET pin
  | byteReceived (b : Byte)
  | resetPinRelease
  deriving DecidableEq, Repr

end Sys2Proof
end

