-- ==== Sys2Proof/WellFormed.lean ====
section
/-!
DEFINITION. Which commands the part can be given: a request is a frame whose body fits the length byte
(R175), NAK_BAD_KIND and UNKNOWN_KIND carry a kind of their row, and a rail reading lies within the
converter's range (R88).
-/

namespace Sys2Proof

/-- R176: kinds that draw NAK (BAD-KIND). -/
def kindIsBad (kind : Byte) : Bool :=
  kind.toNat == 0x7D || kind.toNat == 0x7E || 0x80 ≤ kind.toNat

/-- R178: the kinds that name a request. -/
def requestKinds : List Nat :=
  [0x01, 0x02, 0x03, 0x04, 0x05, 0x06, 0x10, 0x11, 0x12, 0x13, 0x14, 0x15, 0x16, 0x20, 0x21, 0x22, 0x23,
   0x24, 0x30, 0x31, 0x32, 0x40, 0x41, 0x42, 0x50, 0x51, 0x52, 0x53, 0x60, 0x61, 0x62, 0x63, 0x64, 0x7F]

def kindIsRequest (kind : Byte) : Bool := requestKinds.contains kind.toNat

/-- R175: a frame body is at most 56 bytes long. -/
def bodyFits (body : List Byte) : Bool := body.length ≤ Config.bodyMax

/-- Whether a command is one the part can be given. -/
def Instr.wellFormed : Instr → Bool
  | .type _ b | .release _ b | .stop _ b | .resume _ b | .home _ b | .feed _ b | .setFormat _ b
  | .setTabs _ b | .setWatch _ b | .setReports _ b | .setSound _ b | .setSensors _ b | .sound _ b
  | .getStatus _ b | .getLine _ b | .getWord _ b | .getFormat _ b | .getWheel _ b | .showMessage _ b
  | .clearMessage _ b | .setContrast _ b | .acceptWord _ b | .addWord _ b | .removeWord _ b
  | .loadWheelBegin _ b | .loadWheelPetals _ b | .loadWheelEnd _ b | .setComposite _ b
  | .saveSettings _ b | .setProtect _ b | .dictOpen _ b | .dictWrite _ b | .dictClose _ b
  | .reset _ b => bodyFits b
  | .unknownKind k _ b => bodyFits b && !kindIsBad k && !kindIsRequest k
  | .nakBadCheck _ _ => true
  | .nakBadKind k _ => kindIsBad k
  | .nakBadLength n => Config.bodyMax < n.toNat
  | .supplyMeasurement r => r ≤ 400
  | .badByte | .gapTimer | .frameSent | .resetPin | .glyphItem | .spaceItem | .tabItem | .returnItem
  | .backspaceItem | .relocateItem | .boldItem | .underlineItem | .marginReleaseItem | .correctItem
  | .wordCorrectItem | .unassignedItem | .cycleTimeExpiry | .carriageMoveEnd | .wheelTurnEnd
  | .platenMotionEnd | .settlingEnd | .driveEnd | .brakeEnd | .carriageMoveLimit | .wheelTurnLimit
  | .encoderEdge _ _ | .indexPulse | .carriageSearchLimit | .homeFlagFound | .wheelCodeRead _
  | .wheelPhaseLimit | .feedMotionEnd | .rawLevelChange _ _ | .debounceExpiry _ | .heatDecay
  | .wordBlink | .cursorBlink | .overlayTimer | .oneShotEnd | .transactionEnd | .writeBusyLimit
  | .busyClear | .detectionPollLimit | .byteReceived _ | .resetPinRelease => true

end Sys2Proof
end

