-- ==== Sys2Proof/Decode.lean ====
section
/-!
DEFINITION. Decoding of table words. Every row of spec/opcode_table.json is an event of the block and
none gives bits, so no word spells a command. (The bytes of a request frame are decoded by the
framer: Sys2Proof/Machine/Link.lean.)
-/

namespace Sys2Proof

/-- The command that a table word spells: none, since no row of the table gives bits. -/
def decodeTableWord (_nbits _w : Nat) : Option Instr := none

end Sys2Proof
end

