-- ==== Sys2Proof/Machine/State.lean ====
section
/-!
DEFINITION. The state of the 2C40: one structure for each block of 00_scope.md's table, the pins and
the serial memory fitted to it, a clock, and the queue of commands that wait. All of it is plain data.
-/

namespace Sys2Proof.Machine

/-- A moment or a length of time, in tenths of a millisecond. -/
abbrev Time := Nat

/-! ### The Line Memory (R6, R8, R11, R12) -/

/-- R6: the kinds of a cell, in the order of the rule. -/
inductive CellKind where
  | glyph | composite | space | tab | lineEnd
  deriving DecidableEq, Repr

/-- R11: the states of a cell. -/
inductive CellState where
  | held | pending | ordered | struck | lifting
  deriving DecidableEq, Repr

/-- R39: the strike kinds. -/
inductive StrikeKind where
  | main | bold | accent | under
  deriving DecidableEq, Repr

/-- R6, R71: what one completed strike left. -/
structure StrikeRecord where
  position : Nat
  petal : Nat
  wheel : Nat
  kind : StrikeKind
  impression : Nat
  deriving DecidableEq, Repr

/-- R6: a cell. -/
structure Cell where
  id : Nat
  kind : CellKind
  /-- Absent for TAB and LINE-END, 0x20 for SPACE. -/
  glyph : Option Byte
  start : Nat
  advance : Nat
  bold : Bool
  underline : Bool
  pastMargin : Bool
  state : CellState
  word : Option Nat
  strikes : List StrikeRecord
  underlineDropped : Bool
  unprintable : Bool
  deriving DecidableEq, Repr

inductive Pitch where
  | ten | twelve | fifteen | proportional
  deriving DecidableEq, Repr

inductive Alignment where
  | left | justify | center | right
  deriving DecidableEq, Repr

inductive ComposingMode where
  | direct | word | line
  deriving DecidableEq, Repr

inductive SpellingMode where
  | off | flag | hold
  deriving DecidableEq, Repr

/-- R8: how a line ended. -/
inductive Ending where
  | byReturn | byWrap
  deriving DecidableEq, Repr

/-- R8: the fields of a line record that are filled in when the line ends. -/
structure LineEnding where
  rightMargin : Nat
  alignment : Alignment
  /-- Line spacing in platen units: 8, 12, 16, 20 or 24. -/
  spacing : Nat
  spaceWidth : Nat
  mode : ComposingMode
  ending : Ending
  /-- Whether alignment changed a start or an advance of the line: what R105 asks. -/
  moved : Bool
  deriving DecidableEq, Repr

/-- R8: a line record. -/
structure LineRecord where
  leftMargin : Nat
  ended : Option LineEnding
  releasedFlush : Bool
  deriving DecidableEq, Repr

structure LineMemory where
  cells : List Cell
  composing : LineRecord
  /-- The paper line's record; present while a LINE-END cell exists. -/
  paper : Option LineRecord
  /-- R12: the id of the cell at the release mark. -/
  releaseMark : Option Nat
  deriving DecidableEq, Repr

/-! ### The Composer (R1, R3, R17, R20, R21, R31) -/

/-- R21: the format record. -/
structure Format where
  pitch : Pitch
  leftMargin : Nat
  rightMargin : Nat
  /-- In platen units: 8, 12, 16, 20 or 24. -/
  spacing : Nat
  alignment : Alignment
  mode : ComposingMode
  wrap : Bool
  spelling : SpellingMode
  impression : Int
  speed : Nat
  bellZone : Nat
  deriving DecidableEq, Repr

/-- R3: the wait conditions as the Composer last judged them; it is TAKING when none is set. -/
structure Waits where
  backpressure : Bool
  secondLineEnd : Bool
  noWheel : Bool
  watchHold : Bool
  deriving DecidableEq, Repr

structure Composer where
  keyQueue : List Byte
  waits : Waits
  bold : Bool
  underline : Bool
  marginRelease : Bool
  printPoint : Nat
  format : Format
  nextCellId : Nat
  /-- R31: the cells of the open word, for wrap, in list order. -/
  openRun : List Nat
  deriving DecidableEq, Repr

/-! ### The Wheel Unit (R43 to R54) -/

/-- R44: one petal of a profile; glyph 0 is a blank petal. -/
structure PetalEntry where
  glyph : Byte
  width : Nat
  impression : Nat
  accent : Bool
  deriving DecidableEq, Repr

/-- R44: a profile record; its 96 petals in petal order. -/
structure Profile where
  code : Nat
  pitch : Pitch
  spaceWidth : Nat
  underscore : Option Nat
  petals : List PetalEntry
  deriving DecidableEq, Repr

inductive Resolution where
  | settled | fetching | unresolved
  deriving DecidableEq, Repr

inductive DirectoryState where
  | absent | loading | loaded
  deriving DecidableEq, Repr

inductive StagingState where
  | empty | opened | storing
  deriving DecidableEq, Repr

/-- R49, R50: the staging buffer; a petal entry that is present is staged. -/
structure Staging where
  state : StagingState
  code : Nat
  pitch : Pitch
  spaceWidth : Nat
  underscore : Option Nat
  petals : List (Option PetalEntry)
  deriving DecidableEq, Repr

/-- R54: an entry of the composite table. -/
structure Composite where
  code : Byte
  base : Byte
  accent : Byte
  deriving DecidableEq, Repr

/-- R48: where a fetch stands: waiting for the directory, or reading a directory slot into a cache slot. -/
inductive FetchProgress where
  | waitingDirectory
  | reading (directorySlot cacheSlot : Nat) (bytes : List Byte)
  deriving DecidableEq, Repr

structure ProfileFetch where
  code : Nat
  progress : FetchProgress
  deriving DecidableEq, Repr

/-- R52: a store into a profile slot, with the number of its 81 writes done. -/
structure ProfileStore where
  slot : Nat
  done : Nat
  deriving DecidableEq, Repr

/-- R53: an entry of the glyph map that lists at least one petal; a code with no entry lists none. -/
structure GlyphEntry where
  code : Byte
  petals : List Nat
  deriving DecidableEq, Repr

structure WheelUnit where
  mounted : Nat
  /-- The two slots of the profile cache. -/
  cache : List (Option Profile)
  /-- The slot numbers, most recently used first. -/
  recency : List Nat
  /-- The cache slot of the active profile. -/
  active : Option Nat
  resolution : Resolution
  glyphMap : List GlyphEntry
  composites : List Composite
  /-- The 24 entries of the profile directory. -/
  directory : List (Option Nat)
  directoryState : DirectoryState
  /-- Directory reads done, 0 to 24. -/
  directoryRead : Nat
  fetch : Option ProfileFetch
  store : Option ProfileStore
  staging : Staging
  deriving DecidableEq, Repr

/-! ### The strike queue and the Print Engine (R59 to R83) -/

/-- R65: what an order does. -/
inductive OrderWork where
  /-- STRIKE: its kind, the code it strikes (none for UNDER), the candidates and the class built in. -/
  | strike (kind : StrikeKind) (code : Option Byte) (candidates : List Nat) (impression : Option Nat)
  /-- LIFT: the strike kind, petal, wheel code and class of the record it lifts. -/
  | lift (kind : StrikeKind) (petal wheel impression : Nat)
  /-- RETURN: the platen units. -/
  | returnLine (platen : Nat)
  deriving DecidableEq, Repr

structure Order where
  cell : Nat
  position : Nat
  last : Bool
  work : OrderWork
  deriving DecidableEq, Repr

inductive PauseReason where
  | cover | paper | supply
  deriving DecidableEq, Repr

inductive FaultReason where
  | jamCarriage | jamWheel | overtravel | homeNotFound | noWheel
  deriving DecidableEq, Repr

/-- R59: the engine state, with its reason where it has one. -/
inductive EngineState where
  | unhomed | homing | identifying | ready | running
  | paused (reason : PauseReason)
  | faulted (reason : FaultReason)
  deriving DecidableEq, Repr

inductive HomingPhase where
  | carriageSearch | carriageReturn | wheelSearch | wheelRead
  deriving DecidableEq, Repr

inductive OrderPhase where
  | moving | settling | drive | brake
  deriving DecidableEq, Repr

inductive GroupWait where
  | cooling | cycle
  deriving DecidableEq, Repr

/-- The order in progress: the one at the head of the strike queue, once it has started. -/
structure OrderProgress where
  phase : OrderPhase
  /-- The petal chosen at the order's start; none for a RETURN order. -/
  petal : Option Nat
  /-- The class its firing is computed from. -/
  impression : Nat
  /-- The time limit of the carriage move, while it is under way (R72). -/
  carriage : Option Time
  /-- The time limit of the wheel turn, while it is under way (R72). -/
  wheel : Option Time
  /-- Whether the platen advance of a RETURN order is under way (R74). -/
  platen : Bool
  /-- When SETTLING, DRIVE or BRAKE ends. -/
  phaseEnd : Option Time
  /-- The pulses of the firing, from the start of DRIVE, and when DRIVE began. -/
  drivePulse : Nat
  brakePulse : Nat
  driveStart : Time
  deriving DecidableEq, Repr

/-- R75: the fault detail. -/
structure FaultDetail where
  cell : Option Nat
  carriage : Option Int
  target : Option Nat
  deriving DecidableEq, Repr

structure Engine where
  state : EngineState
  carriage : Option Int
  wheelPosition : Option Nat
  homing : Option HomingPhase
  /-- R62: the homing travel. -/
  homingTravel : Nat
  /-- The time limit of the homing phase. -/
  homingLimit : Option Time
  order : Option OrderProgress
  /-- Whether the group at the head of the strike queue has started (R66). -/
  groupStarted : Bool
  cycleTimer : Option Time
  latchedSpeed : Option Nat
  groupWait : Option GroupWait
  /-- The platen units of the FEED in progress. -/
  feed : Option Int
  faultDetail : Option FaultDetail
  /-- The levels of the encoder channels A and B. -/
  channelA : Bool
  channelB : Bool
  deriving DecidableEq, Repr

/-! ### Lift-off correction (R97 to R110) -/

/-- R100: a built LIFT group. -/
structure LiftGroup where
  cell : Nat
  orders : List Order
  deriving DecidableEq, Repr

structure Correction where
  deferred : Option Nat
  waiting : List LiftGroup
  deriving DecidableEq, Repr

/-! ### The Impression Unit (R84 to R96) -/

inductive Band where
  | critical | low | nominal | high
  deriving DecidableEq, Repr

structure Impression where
  band : Band
  firstPending : Bool
  lastReading : Option Nat
  measureDue : Time
  heat : Nat
  decayDue : Time
  coolingLatch : Bool
  deriving DecidableEq, Repr

/-! ### The Zone Monitor (R111 to R123) -/

inductive WatchKind where
  | note | hold
  deriving DecidableEq, Repr

structure Watch where
  position : Nat
  span : Nat
  kind : WatchKind
  enabled : Bool
  deriving DecidableEq, Repr

structure ZoneMonitor where
  bellArmed : Bool
  tabStops : List Nat
  watch1 : Watch
  watch2 : Watch
  holdPass : Bool
  holdNoted : Bool
  deriving DecidableEq, Repr

/-! ### The Spelling Unit (R124 to R142) -/

inductive UnitState where
  | starting | available | unavailable
  deriving DecidableEq, Repr

inductive DictStatus where
  | none
  | valid (buckets : Nat)
  | bad | download | absent
  deriving DecidableEq, Repr

inductive WordState where
  | opened | queued | checking | good | unknown | skipped
  deriving DecidableEq, Repr

inductive SkipReason where
  | digit | long | unavailable
  deriving DecidableEq, Repr

/-- R126: a word record. -/
structure Word where
  id : Nat
  first : Nat
  last : Nat
  count : Nat
  hash : Nat
  state : WordState
  skip : Option SkipReason
  generation : Nat
  holdMark : Bool
  accepted : Bool
  deriving DecidableEq, Repr

/-- R124: the open word, or the run of letter cells that found the word table full. -/
inductive OpenWord where
  | none
  | word (id : Nat)
  | unlisted (cells : List Nat)
  deriving DecidableEq, Repr

/-- R131, R132: how far a lookup has come. -/
inductive LookupProgress where
  | entryLow
  | entryHigh (low : List Byte)
  | scan (start extent : Nat) (bytes : List Byte)
  | slot (slot : Nat) (bytes : List Byte)
  deriving DecidableEq, Repr

structure Lookup where
  word : Nat
  generation : Nat
  letters : List Nat
  hash : Nat
  progress : LookupProgress
  deriving DecidableEq, Repr

structure IgnoreEntry where
  letters : List Nat
  hash : Nat
  deriving DecidableEq, Repr

inductive UserWordKind where
  | add | remove
  deriving DecidableEq, Repr

inductive UserWordProgress where
  | compare (slot : Nat) (bytes : List Byte)
  | write (slot done : Nat)
  deriving DecidableEq, Repr

structure UserWordOp where
  kind : UserWordKind
  letters : List Nat
  hash : Nat
  progress : UserWordProgress
  deriving DecidableEq, Repr

/-- R140: the reads of STARTING. -/
inductive StartupRead where
  | none
  | header
  | index (slot : Nat) (bytes : List Byte)
  deriving DecidableEq, Repr

structure SpellingUnit where
  unit : UnitState
  status : DictStatus
  words : List Word
  nextWordId : Nat
  openWord : OpenWord
  pendingApostrophe : Option Nat
  checkQueue : List Nat
  lookup : Option Lookup
  /-- Most recently used first. -/
  ignoreList : List IgnoreEntry
  /-- The 256 entries of the user-word index. -/
  userIndex : List (Option Nat)
  userOp : Option UserWordOp
  startup : StartupRead
  deriving DecidableEq, Repr

/-! ### The Display Controller (R143 to R154) -/

inductive Shape where
  | blank
  | char (code : Byte)
  | rightArrow | returnSymbol | block
  deriving DecidableEq, Repr

structure DisplayCell where
  shape : Shape
  underlineRow : Bool
  deriving DecidableEq, Repr

structure Overlay where
  codes : List Byte
  expires : Option Time
  deriving DecidableEq, Repr

structure Display where
  windowStart : Nat
  cursorIndex : Nat
  cursorColumn : Nat
  cells : List DisplayCell
  wordBlinkOn : Bool
  wordBlinkDue : Time
  cursorBlinkOn : Bool
  cursorBlinkDue : Time
  overlay : Option Overlay
  contrast : Nat
  rendered : Bool
  deriving DecidableEq, Repr

/-! ### The Memory Controller and the serial memory (R155 to R168) -/

/-- The bytes of the serial memory, addresses strictly rising, no entry equal to the erased byte. -/
abbrev Memory := List Host.Cell

inductive MemoryState where
  | detecting | absent | twoByte | threeByte
  deriving DecidableEq, Repr

inductive AddressWidth where
  | two | three
  deriving DecidableEq, Repr

/-- R159: the users of the memory. -/
inductive User where
  | directory | fetch | store | dictHeader | indexLoad | lookup | userWord | settings | protect
  | dictWrite | dictClose
  deriving DecidableEq, Repr

/-- R158: the kinds of a transaction. -/
inductive Access where
  | read (address : Nat)
  | write (address : Nat) (data : List Byte)
  | statusWrite (level : Nat)
  deriving DecidableEq, Repr

structure Request where
  user : User
  access : Access
  deriving DecidableEq, Repr

structure Transaction where
  request : Request
  /-- Off once its user has given up the operation: the result is then not used (R158). -/
  live : Bool
  /-- When the busy poll of a write reaches its limit. -/
  busyUntil : Option Time
  deriving DecidableEq, Repr

/-- R155: the steps of detection. -/
inductive Detection where
  | none
  | poll (limit : Time)
  | header2
  | header3
  | settings (bytes : List Byte)
  deriving DecidableEq, Repr

structure DictWriteOp where
  offset : Nat
  data : List Byte
  done : Nat
  deriving DecidableEq, Repr

structure SettingsSave where
  image : List Byte
  done : Nat
  deriving DecidableEq, Repr

structure MemoryController where
  state : MemoryState
  /-- 1, 2 or 3 for 32, 64 or 128 KB. -/
  sizeCode : Option Nat
  protect : Nat
  /-- Set after a failed write until the memory reads not busy; a write being polled is the current
  transaction. -/
  busy : Bool
  current : Option Transaction
  level1 : List Request
  level2 : List Request
  level3 : List Request
  level4 : List Request
  downloadOpen : Bool
  dictWrite : Option DictWriteOp
  dictClose : Bool
  save : Option SettingsSave
  protectChange : Option Nat
  detection : Detection
  deriving DecidableEq, Repr

/-- The serial memory fitted to the part: its address width (none: no memory is fitted), its bytes, the
protect field of its status register, its write-enable latch and its busy flag. -/
structure Chip where
  width : Option AddressWidth
  cells : Memory
  protectField : Nat
  writeLatch : Bool
  busyFlag : Bool
  deriving DecidableEq, Repr

/-! ### Sensor inputs and the sounder (R169 to R174) -/

inductive EdgeSelection where
  | none | openGoing | closeGoing | both
  deriving DecidableEq, Repr

structure Input where
  debounced : Switch
  raw : Switch
  timer : Option Time
  selection : EdgeSelection
  deriving DecidableEq, Repr

structure Sensors where
  cover : Input
  paper : Input
  tape : Input
  ribbon : Input
  deriving DecidableEq, Repr

inductive OneShot where
  | click | bell | beep | doubleBeep | error
  deriving DecidableEq, Repr

structure Playing where
  shot : OneShot
  ends : Time
  deriving DecidableEq, Repr

structure Sounder where
  volume : Nat
  bellEnable : Bool
  tone : Bool
  frequency : Nat
  queue : List OneShot
  playing : Option Playing
  deriving DecidableEq, Repr

/-! ### The Link Controller (R175 to R183) -/

inductive FramerState where
  | hunting | length | kind | tag | body | check
  deriving DecidableEq, Repr

/-- The frame in hand. -/
structure FrameInHand where
  length : Nat
  kind : Byte
  tag : Byte
  body : List Byte
  /-- The low byte of the running sum. -/
  sum : Byte
  deriving DecidableEq, Repr

/-- A frame to be sent, or being sent; start, length and check bytes follow from it. -/
structure OutFrame where
  kind : Byte
  tag : Byte
  body : List Byte
  deriving DecidableEq, Repr

/-- A frame on the transmit line, and when its last byte will have gone. -/
structure Sending where
  frame : OutFrame
  ends : Time
  deriving DecidableEq, Repr

/-- The eleven report kinds. -/
inductive ReportKind where
  | start | engine | line | lift | spell | zone | sensor | supply | memory | wheel | key
  deriving DecidableEq, Repr

/-- R179: an entry of the report queue. -/
structure ReportEntry where
  kind : ReportKind
  occurrences : Nat
  reason : Nat
  detail : List Byte
  deriving DecidableEq, Repr

structure Link where
  framer : FramerState
  frame : FrameInHand
  gap : Option Time
  replies : List OutFrame
  reports : List ReportEntry
  /-- Bit n stands for report kind 0x81 + n. -/
  mask : BitVec 16
  transmit : Option Sending
  resetPending : Bool
  /-- In baud. -/
  rate : Nat
  deriving DecidableEq, Repr

/-- The pins named because their level enters the behaviour. -/
structure Pins where
  rate1 : Bool
  rate0 : Bool
  allow : Bool
  /-- RESET is active low: on while the pin is held low. -/
  resetLow : Bool
  deriving DecidableEq, Repr

/-! ### The whole -/

/-- The state of the machine. -/
structure State where
  link : Link
  composer : Composer
  line : LineMemory
  wheel : WheelUnit
  strikeQueue : List Order
  engine : Engine
  correction : Correction
  impression : Impression
  zone : ZoneMonitor
  spelling : SpellingUnit
  display : Display
  memory : MemoryController
  chip : Chip
  sensors : Sensors
  sounder : Sounder
  pins : Pins
  /-- The clock, in tenths of a millisecond. -/
  now : Time
  /-- The model's own counter of free values taken. -/
  fresh : Nat
  /-- The commands that wait, the front one next. -/
  pending : List Instr
  deriving DecidableEq, Repr

/-- Why a step stops with a fault. -/
inductive Fault where
  /-- Raised by TRANSACTION_END alone, where the transaction in hand lies outside the memory's address
  space (R157: such a read "is not made", so no state reached from reset holds one). Safe: the model
  stops where the part would not be. -/
  | pastEndOfMemory
  deriving DecidableEq, Repr

/-- Why a step refuses a command. -/
inductive Refusal where
  /-- Raised by exec's arm for a row that has no meaning yet. Safe. -/
  | notModelled (mnemonic : String)
  deriving DecidableEq, Repr

/-! ### After reset -/

/-- R21: the defaults of the format record. -/
def Format.default : Format :=
  { pitch := .twelve, leftMargin := 120, rightMargin := 1080, spacing := 8, alignment := .left,
    mode := .direct, wrap := true, spelling := .flag, impression := 0, speed := 3, bellZone := 60 }

/-- R123: a form watch after reset. -/
def Watch.default : Watch := { position := 0, span := 1, kind := .note, enabled := false }

def Waits.clear : Waits :=
  { backpressure := false, secondLineEnd := false, noWheel := false, watchHold := false }

/-- R8, R25: a line record just opened. -/
def LineRecord.fresh (leftMargin : Nat) : LineRecord :=
  { leftMargin := leftMargin, ended := none, releasedFlush := false }

def FrameInHand.clear : FrameInHand :=
  { length := 0, kind := 0, tag := 0, body := [], sum := 0 }

/-- R183, R175: the Link Controller after a reset, the rate taken from the straps; its report queue as
the reset empties it, before the reset's own reports (R60, R140). -/
def Link.reset (p : Pins) : Link :=
  { framer := .hunting, frame := .clear, gap := none, replies := [], reports := [], mask := 0x07FF,
    transmit := none, resetPending := false,
    rate := match p.rate1, p.rate0 with
      | false, false => 9600
      | false, true => 19200
      | true, false => 38400
      | true, true => 57600 }

/-- R25. -/
def Composer.reset : Composer :=
  { keyQueue := [], waits := .clear, bold := false, underline := false, marginRelease := false,
    printPoint := Format.default.leftMargin, format := .default, nextCellId := 0, openRun := [] }

/-- R25. -/
def LineMemory.reset : LineMemory :=
  { cells := [], composing := .fresh Format.default.leftMargin, paper := none, releaseMark := none }

/-- R58: an empty staging buffer; its header values are the model's (log entry 5). -/
def Staging.clear : Staging :=
  { state := .empty, code := 0, pitch := .ten, spaceWidth := 0, underscore := none,
    petals := List.replicate 96 none }

/-- R58. -/
def WheelUnit.reset : WheelUnit :=
  { mounted := 0, cache := [none, none], recency := [0, 1], active := none, resolution := .settled,
    glyphMap := [], composites := [], directory := List.replicate 24 none, directoryState := .loading,
    directoryRead := 0, fetch := none, store := none, staging := .clear }

/-- R83; the encoder channels are pins and keep their levels. R83 gives no homing travel: it is 0 (DESIGN CHOICE,
log entry 5). -/
def Engine.reset (channelA channelB : Bool) : Engine :=
  { state := .unhomed, carriage := none, wheelPosition := none, homing := none, homingTravel := 0,
    homingLimit := none, order := none, groupStarted := false, cycleTimer := none, latchedSpeed := none,
    groupWait := none, feed := none, faultDetail := none, channelA := channelA, channelB := channelB }

/-- R110. -/
def Correction.reset : Correction := { deferred := none, waiting := [] }

/-- R96, at the moment of the reset. -/
def Impression.reset (now : Time) : Impression :=
  { band := .nominal, firstPending := true, lastReading := none,
    measureDue := now + Config.measureTime, heat := 0, decayDue := now + Config.decayTime,
    coolingLatch := false }

/-- R123. -/
def ZoneMonitor.reset : ZoneMonitor :=
  { bellArmed := true, tabStops := [], watch1 := .default, watch2 := .default, holdPass := false,
    holdNoted := false }

/-- R142. -/
def SpellingUnit.reset : SpellingUnit :=
  { unit := .starting, status := .none, words := [], nextWordId := 0, openWord := .none,
    pendingApostrophe := none, checkQueue := [], lookup := none, ignoreList := [],
    userIndex := List.replicate 256 none, userOp := none, startup := .none }

def DisplayCell.blank : DisplayCell := { shape := .blank, underlineRow := false }

/-- R154, at the moment of the reset. -/
def Display.reset (now : Time) : Display :=
  { windowStart := 0, cursorIndex := 0, cursorColumn := 0, cells := List.replicate 32 .blank,
    wordBlinkOn := true, wordBlinkDue := now + Config.wordBlinkTime, cursorBlinkOn := true,
    cursorBlinkDue := now + Config.cursorBlinkTime, overlay := none, contrast := 8, rendered := false }

/-- R168, R155: the Memory Controller with detection begun; the protect level is the caller's. -/
def MemoryController.reset (protect : Nat) (now : Time) : MemoryController :=
  { state := .detecting, sizeCode := none, protect := protect, busy := false, current := none,
    level1 := [], level2 := [], level3 := [], level4 := [], downloadOpen := false, dictWrite := none,
    dictClose := false, save := none, protectChange := none,
    detection := .poll (now + Config.busyLimit) }

/-- R174: an input after a reset: the debounced state is the raw level. -/
def Input.reset (raw : Switch) : Input :=
  { debounced := raw, raw := raw, timer := none, selection := .both }

/-- R174. -/
def Sounder.reset : Sounder :=
  { volume := 2, bellEnable := true, tone := false, frequency := 1000, queue := [], playing := none }

/-- The pins at power-on; the book gives no levels (log entry 5). -/
def Pins.powerOn : Pins := { rate1 := false, rate0 := false, allow := false, resetLow := false }

/-- The serial memory at power-on: one with two address bytes, every byte erased (log entry 5). -/
def Chip.powerOn : Chip :=
  { width := some .two, cells := [], protectField := 0, writeLatch := false, busyFlag := false }

/-- The machine right after power-on through the RESET pin, the pin returned high: every block as its
own chapter's reset rule gives, the two reports that the reset itself raises standing in the report
queue (R60, R140), and the first of them taken by the idle transmit line (R181). The body of that
ENGINE report: kind code, new state, reason, then the state at sending. Log entries 1 and 5. -/
def State.reset : State :=
  { link :=
      { Link.reset .powerOn with
        reports := [{ kind := .spell, occurrences := 1, reason := 3, detail := [0] }]
        transmit := some
          { frame := { kind := 0xFD, tag := 1, body := [0x82, 0, 0, 0, 0, 0x80, 0x00, 0xFF, 0] }
            ends := 146 } }
    composer := .reset
    line := .reset
    wheel := .reset
    strikeQueue := []
    engine := .reset false false
    correction := .reset
    impression := .reset 0
    zone := .reset
    spelling := .reset
    display := .reset 0
    memory := .reset 3 0
    chip := .powerOn
    sensors :=
      { cover := .reset .closed, paper := .reset .closed, tape := .reset .closed, ribbon := .reset .closed }
    sounder := .reset
    pins := .powerOn
    now := 0
    fresh := 0
    pending := [] }

end Sys2Proof.Machine
end

