-- ==== Sys2Proof/Machine/Flags.lean ====
section
/-!
DEFINITION. The codes under which named values are sent and stored (R185), and the conditions that
follow from the state: the zone start, the effective speed, the write-protect line, the classes of
key items and glyph codes.
-/

namespace Sys2Proof.Machine

/-! ### Codes of named values (R185) -/

def CellKind.code : CellKind → Nat
  | .glyph => 0 | .composite => 1 | .space => 2 | .tab => 3 | .lineEnd => 4

def CellState.code : CellState → Nat
  | .held => 0 | .pending => 1 | .ordered => 2 | .struck => 3 | .lifting => 4

def StrikeKind.code : StrikeKind → Nat
  | .main => 0 | .bold => 1 | .accent => 2 | .under => 3

def Pitch.code : Pitch → Nat
  | .ten => 10 | .twelve => 12 | .fifteen => 15 | .proportional => 0

def Pitch.ofCode : Nat → Option Pitch
  | 10 => some .ten | 12 => some .twelve | 15 => some .fifteen | 0 => some .proportional | _ => none

/-- Line spacing: codes 2 to 6 for 8 to 24 platen units. -/
def spacingCode (units : Nat) : Nat := units / 4

def spacingOfCode (c : Nat) : Option Nat := if 2 ≤ c ∧ c ≤ 6 then some (4 * c) else none

def Alignment.code : Alignment → Nat
  | .left => 0 | .justify => 1 | .center => 2 | .right => 3

def Alignment.ofCode : Nat → Option Alignment
  | 0 => some .left | 1 => some .justify | 2 => some .center | 3 => some .right | _ => none

def ComposingMode.code : ComposingMode → Nat
  | .direct => 0 | .word => 1 | .line => 2

def ComposingMode.ofCode : Nat → Option ComposingMode
  | 0 => some .direct | 1 => some .word | 2 => some .line | _ => none

def SpellingMode.code : SpellingMode → Nat
  | .off => 0 | .flag => 1 | .hold => 2

def SpellingMode.ofCode : Nat → Option SpellingMode
  | 0 => some .off | 1 => some .flag | 2 => some .hold | _ => none

def boolCode (b : Bool) : Nat := if b then 1 else 0

/-- "An on or off value is 0 for off and 1 for on." -/
def boolOfCode : Nat → Option Bool
  | 0 => some false | 1 => some true | _ => none

def WatchKind.code : WatchKind → Nat
  | .note => 0 | .hold => 1

def WatchKind.ofCode : Nat → Option WatchKind
  | 0 => some .note | 1 => some .hold | _ => none

def PauseReason.code : PauseReason → Nat
  | .cover => 1 | .paper => 2 | .supply => 3

def FaultReason.code : FaultReason → Nat
  | .jamCarriage => 4 | .jamWheel => 5 | .overtravel => 6 | .homeNotFound => 7 | .noWheel => 8

def EngineState.code : EngineState → Nat
  | .unhomed => 0 | .homing => 1 | .identifying => 2 | .ready => 3 | .running => 4
  | .paused _ => 5 | .faulted _ => 6

def EngineState.reasonCode : EngineState → Nat
  | .paused r => r.code
  | .faulted r => r.code
  | _ => 0

def EngineState.isFaulted : EngineState → Bool
  | .faulted _ => true
  | _ => false

def EngineState.isPaused : EngineState → Bool
  | .paused _ => true
  | _ => false

def Band.code : Band → Nat
  | .critical => 0 | .low => 1 | .nominal => 2 | .high => 3

def UnitState.code : UnitState → Nat
  | .starting => 0 | .available => 1 | .unavailable => 2

def DictStatus.code : DictStatus → Nat
  | .none => 0 | .valid _ => 1 | .bad => 2 | .download => 3 | .absent => 4

def WordState.code : WordState → Nat
  | .opened => 0 | .queued => 1 | .checking => 2 | .good => 3 | .unknown => 4 | .skipped => 5

def SkipReason.code : SkipReason → Nat
  | .digit => 0 | .long => 1 | .unavailable => 2

def MemoryState.code : MemoryState → Nat
  | .detecting => 0 | .absent => 1 | .twoByte => 2 | .threeByte => 3

def Resolution.code : Resolution → Nat
  | .settled => 0 | .fetching => 1 | .unresolved => 2

def DirectoryState.code : DirectoryState → Nat
  | .absent => 0 | .loading => 1 | .loaded => 2

def StagingState.code : StagingState → Nat
  | .empty => 0 | .opened => 1 | .storing => 2

def EdgeSelection.code : EdgeSelection → Nat
  | .none => 0 | .openGoing => 1 | .closeGoing => 2 | .both => 3

def EdgeSelection.ofCode : Nat → Option EdgeSelection
  | 0 => some .none | 1 => some .openGoing | 2 => some .closeGoing | 3 => some .both | _ => none

/-- The place of a switch state in "OPEN or CLOSED" (11_sensors_and_the_sounder.md). Log entry 8. -/
def switchCode : Switch → Nat
  | .opened => 0 | .closed => 1

def sensorCode : Sensor → Nat
  | .cover => 0 | .paper => 1 | .tape => 2 | .ribbon => 3

def OneShot.ofCode : Nat → Option OneShot
  | 1 => some .click | 2 => some .bell | 3 => some .beep | 4 => some .doubleBeep | 5 => some .error
  | _ => none

/-- R172: a stretch of a one-shot: its frequency in hertz, none for silence, and its length. -/
structure SoundSegment where
  frequency : Option Nat
  length : Time
  deriving DecidableEq, Repr

/-- R172: the Sound column of the table. -/
def OneShot.sound : OneShot → List SoundSegment
  | .click => [⟨some 2000, 50⟩]
  | .bell => [⟨some 2400, 3000⟩]
  | .beep => [⟨some 1000, 1000⟩]
  | .doubleBeep => [⟨some 1000, 800⟩, ⟨none, 600⟩, ⟨some 1000, 800⟩]
  | .error => [⟨some 400, 2500⟩]

/-- R172: BELL decays. -/
def OneShot.decays (o : OneShot) : Bool := o == .bell

/-- R172: the length of a one-shot: that of its stretches, one after another. -/
def OneShot.length (o : OneShot) : Time := (o.sound.map (·.length)).sum

/-- R172, R173: how loud the speaker sounds: by the volume, 1 to 3, or at the tone's one fixed level. -/
inductive Loudness where
  | volume (level : Nat)
  | fixed
  deriving DecidableEq, Repr

/-- R172, R173: what the speaker gives at a moment. -/
structure SpeakerOutput where
  frequency : Nat
  loudness : Loudness
  decaying : Bool
  deriving DecidableEq, Repr

/-- R172: what sounds at a time counted from the start of a one-shot; none for silence. -/
def frequencyAt : List SoundSegment → Time → Option Nat
  | [], _ => none
  | g :: rest, t => if t < g.length then g.frequency else frequencyAt rest (t - g.length)

/-- R172, R173: the speaker's output: the continuous tone at its fixed level, at volume 0 too; else the one-shot
that plays, at the volume as it stands; else nothing. -/
def Sounder.output (x : Sounder) (now : Time) : Option SpeakerOutput :=
  if x.tone then some { frequency := x.frequency, loudness := .fixed, decaying := false }
  else
    match x.playing with
    | none => none
    | some p =>
      if x.volume = 0 then none
      else
        (frequencyAt p.shot.sound (now + p.shot.length - p.ends)).map fun f =>
          { frequency := f, loudness := .volume x.volume, decaying := p.shot.decays }

/-- The place of a report kind: its code is 0x81 plus this, and it is its bit in the mask (R180). -/
def ReportKind.index : ReportKind → Nat
  | .start => 0 | .engine => 1 | .line => 2 | .lift => 3 | .spell => 4 | .zone => 5 | .sensor => 6
  | .supply => 7 | .memory => 8 | .wheel => 9 | .key => 10

/-- R176: the status codes of a reply (R177). -/
inductive Status where
  | ok | accepted | queueFull | busy | lineOpen | heldText | notReady | badValue | unknownKind | full
  | exist | notFound | tooLong | isProtected | notOpen | noMemory
  deriving DecidableEq, Repr

def Status.code : Status → Nat
  | .ok => 0 | .accepted => 1 | .queueFull => 2 | .busy => 3 | .lineOpen => 4 | .heldText => 5
  | .notReady => 6 | .badValue => 7 | .unknownKind => 8 | .full => 9 | .exist => 10 | .notFound => 11
  | .tooLong => 12 | .isProtected => 13 | .notOpen => 14 | .noMemory => 15

/-- R167: the operations a MEMORY report names, in the order of the rule. -/
inductive MemoryOperation where
  | addWord | removeWord | profileStore | settings | protect | dictWrite | dictClose
  deriving DecidableEq, Repr

def MemoryOperation.code : MemoryOperation → Nat
  | .addWord => 0 | .removeWord => 1 | .profileStore => 2 | .settings => 3 | .protect => 4
  | .dictWrite => 5 | .dictClose => 6

/-- R112: the causes of a ZONE event. -/
inductive ZoneCause where
  | rightStop | carriageEnd | leftStop | bell | watchHold | watchNote
  deriving DecidableEq, Repr

def ZoneCause.code : ZoneCause → Nat
  | .rightStop => 0 | .carriageEnd => 1 | .leftStop => 2 | .bell => 3 | .watchHold => 4 | .watchNote => 5

/-! ### Classes of codes (00_scope.md "Glyph codes"; R4, R124) -/

/-- The codes a cell can be created from: 0x21–0x7E and 0xA1–0xFF. -/
def isGlyphCode (c : Byte) : Bool :=
  (0x21 ≤ c.toNat && c.toNat ≤ 0x7E) || 0xA1 ≤ c.toNat

def isSpaceCode (c : Byte) : Bool := c.toNat == 0x20

/-- R4: codes that name no item. -/
def isUnassignedCode (c : Byte) : Bool :=
  !isGlyphCode c && !isSpaceCode c &&
    !([0x02, 0x08, 0x09, 0x0D, 0x15, 0x1B, 0x1C, 0x1D, 0x1E].contains c.toNat)

/-- R151: the codes the character generator shows from a message. -/
def isShownCode (c : Byte) : Bool := isGlyphCode c || isSpaceCode c

/-- R124: a letter, the apostrophe apart. -/
def isLetterCode (c : Byte) : Bool :=
  (0x41 ≤ c.toNat && c.toNat ≤ 0x5A) || (0x61 ≤ c.toNat && c.toNat ≤ 0x7A) || 0xC0 ≤ c.toNat

def isApostrophe (c : Byte) : Bool := c.toNat == 0x27

def isDigitCode (c : Byte) : Bool := 0x30 ≤ c.toNat && c.toNat ≤ 0x39

/-- R129: the value of a letter; 0 for a code that is none. -/
def letterValue (c : Byte) : Nat :=
  let n := c.toNat
  if 0x61 ≤ n ∧ n ≤ 0x7A then n - 0x60
  else if 0x41 ≤ n ∧ n ≤ 0x5A then n - 0x40
  else if n = 0x27 then 27
  else if 0xE0 ≤ n then n - 0xE0 + 28
  else if 0xC0 ≤ n then n + 0x20 - 0xE0 + 28
  else 0

/-- R129: the lookup hash. -/
def wordHash (letters : List Nat) : Nat :=
  letters.foldl (fun h v => (h * 37 + v) % 65536) 0

/-! ### Conditions that follow from the state -/

/-- R27: the fixed advance of a pitch; none in PS. -/
def Pitch.advance : Pitch → Option Nat
  | .ten => some 12 | .twelve => some 10 | .fifteen => some 8 | .proportional => none

/-- R18: the nominal advance of a backspace: the pitch advance, or 6 in PS. -/
def Format.nominalAdvance (f : Format) : Nat := f.pitch.advance.getD 6

/-- The first position of the bell zone (07_margins_zones_and_tab_stops.md). -/
def Format.zoneStart (f : Format) : Nat := f.rightMargin - f.bellZone

/-- R90: the speed field, limited to 2 in LOW and CRITICAL. -/
def effectiveSpeed (field : Nat) (band : Band) : Nat :=
  match band with
  | .low | .critical => min field 2
  | .nominal | .high => field

def State.effectiveSpeed (s : State) : Nat :=
  Machine.effectiveSpeed s.composer.format.speed s.impression.band

/-- R70: the cycle time of an effective speed. -/
def cycleTime : Nat → Time
  | 1 => 1000 | 2 => 800 | 3 => 660 | _ => 600

/-- R157: the end of memory for a size code. -/
def endOfMemory : Option Nat → Nat
  | some 1 => 0x8000 | some 2 => 0x10000 | some 3 => 0x20000 | _ => 0

/-- R160: whether an address lies in a region that a protect level covers. -/
def isCovered (level address : Nat) : Bool :=
  match level with
  | 0 => false
  | 1 => 0x3000 ≤ address
  | 2 => 0x1200 ≤ address
  | _ => true

/-- R160, R161, R168: whether the part drives the write-protect line active: from a reset until the
level is read, and while the level is 3, but for the status write that lowers it from 3. -/
def State.writeProtectActive (s : State) : Bool :=
  s.memory.state == .detecting ||
    (3 ≤ s.memory.protect &&
      match s.memory.current with
      | some { request := { access := .statusWrite level, .. }, .. } => 3 ≤ level
      | _ => true)

def Sensors.get (x : Sensors) : Sensor → Input
  | .cover => x.cover | .paper => x.paper | .tape => x.tape | .ribbon => x.ribbon

def Sensors.set (x : Sensors) (which : Sensor) (i : Input) : Sensors :=
  match which with
  | .cover => { x with cover := i }
  | .paper => { x with paper := i }
  | .tape => { x with tape := i }
  | .ribbon => { x with ribbon := i }

def Sensors.isOpen (x : Sensors) (which : Sensor) : Bool := (x.get which).debounced == .opened

/-- R170: whether a selection reports an edge to (or a state of) this switch state. -/
def EdgeSelection.reports (e : EdgeSelection) (state : Switch) : Bool :=
  match e, state with
  | .none, _ => false
  | .openGoing, .opened => true
  | .openGoing, .closed => false
  | .closeGoing, .opened => false
  | .closeGoing, .closed => true
  | .both, _ => true

end Sys2Proof.Machine
end

