-- ==== Sys2Proof/Machine/Operands.lean ====
section
/-!
DEFINITION. The byte layouts of R185: numbers most significant byte first, the bodies of the requests
that carry fields, and the images kept in the serial memory (the format bytes, a profile slot, the
settings record, the headers, a user-word slot).
-/

namespace Sys2Proof.Machine

/-! ### Numbers -/

/-- Two bytes, most significant first. -/
def be16 (n : Nat) : List Byte := [byte (n / 256), byte n]

/-- Three bytes, most significant first. -/
def be24 (n : Nat) : List Byte := [byte (n / 65536), byte (n / 256), byte n]

/-- A signed number in two bytes, two's complement. -/
def beInt16 (i : Int) : List Byte := be16 (i % 65536).toNat

/-- The carriage count in a record; 0x8000 for "not known". -/
def carriageBytes : Option Int → List Byte
  | none => be16 0x8000
  | some c => beInt16 c

/-- A one-byte field that may be absent. -/
def optByte : Option Nat → Byte
  | none => 0xFF
  | some n => byte n

def num16 (hi lo : Byte) : Nat := hi.toNat * 256 + lo.toNat

def num24 (a b c : Byte) : Nat := a.toNat * 65536 + b.toNat * 256 + c.toNat

/-- Byte `i` of a body or image; 0 past its end. -/
def at8 (bs : List Byte) (i : Nat) : Nat := (bs.getD i 0).toNat

def at16 (bs : List Byte) (i : Nat) : Nat := num16 (bs.getD i 0) (bs.getD (i + 1) 0)

/-- The low byte of the sum of some bytes. -/
def sumBytes (bs : List Byte) : Byte := bs.foldl (· + ·) 0

/-- R176, R165: the check byte: 255 minus the low byte of the sum. -/
def checkByte (bs : List Byte) : Byte := 255 - sumBytes bs

/-! ### The 13 format bytes -/

def Format.bytes (f : Format) : List Byte :=
  [byte f.pitch.code] ++ be16 f.leftMargin ++ be16 f.rightMargin ++
    [byte (spacingCode f.spacing), byte f.alignment.code, byte f.mode.code, byte (boolCode f.wrap),
     byte f.spelling.code, BitVec.ofInt 8 f.impression, byte f.speed, byte f.bellZone]

/-- R165: the format fields of a settings record, when every one lies within its values. -/
def Format.ofBytes (bs : List Byte) : Option Format := do
  let pitch ← Pitch.ofCode (at8 bs 0)
  let spacing ← spacingOfCode (at8 bs 5)
  let alignment ← Alignment.ofCode (at8 bs 6)
  let mode ← ComposingMode.ofCode (at8 bs 7)
  let wrap ← boolOfCode (at8 bs 8)
  let spelling ← SpellingMode.ofCode (at8 bs 9)
  let left := at16 bs 1
  let right := at16 bs 3
  let impression := (bs.getD 10 0).toInt
  let speed := at8 bs 11
  let bellZone := at8 bs 12
  if right ≤ 1800 ∧ left + 120 ≤ right ∧ -2 ≤ impression ∧ impression ≤ 2 ∧ 1 ≤ speed ∧ speed ≤ 4 ∧
      bellZone ≤ 120 then
    some { pitch := pitch, leftMargin := left, rightMargin := right, spacing := spacing,
           alignment := alignment, mode := mode, wrap := wrap, spelling := spelling,
           impression := impression, speed := speed, bellZone := bellZone }
  else none

/-! ### Petals and profiles -/

/-- R185: a petal entry: glyph code; width; class in the low three bits, accent flag in the top bit. -/
def PetalEntry.bytes (p : PetalEntry) : List Byte :=
  [p.glyph, byte p.width, byte (p.impression + if p.accent then 128 else 0)]

/-- R44: the values of a petal entry; the other bits of its third byte must be 0 (R185). -/
def PetalEntry.ofBytes (g w c : Byte) : Option PetalEntry :=
  let impression := c.toNat % 8
  if (g.toNat = 0 ∨ isGlyphCode g) ∧ 4 ≤ w.toNat ∧ w.toNat ≤ 18 ∧ 1 ≤ impression ∧ impression ≤ 5 ∧
      c.toNat % 128 = impression then
    some { glyph := g, width := w.toNat, impression := impression, accent := 128 ≤ c.toNat }
  else none

/-- The petal entries of a body or image; none when the bytes are not whole entries within R44. -/
def petalEntries : List Byte → Option (List PetalEntry)
  | [] => some []
  | g :: w :: c :: rest => do
    let p ← PetalEntry.ofBytes g w c
    let ps ← petalEntries rest
    some (p :: ps)
  | _ => none

/-- R44: the underscore petal of a header; 0xFF is "absent". -/
def underscoreOfByte (b : Byte) : Option (Option Nat) :=
  if b.toNat = 0xFF then some none else if b.toNat ≤ 95 then some (some b.toNat) else none

/-- R44: "the underscore petal, when present, is neither blank nor accent-flagged". -/
def underscoreAllowed (petals : List PetalEntry) : Option Nat → Bool
  | none => true
  | some u =>
    match petals[u]? with
    | none => false
    | some p => p.glyph.toNat != 0 && !p.accent

/-- R44: the values of a profile header. -/
def headerAllowed (code spaceWidth : Nat) : Bool :=
  1 ≤ code && code ≤ 63 && 6 ≤ spaceWidth && spaceWidth ≤ 12

/-- The profile a slot image of 320 bytes holds, when it is valid (R44, R48). -/
def Profile.ofBytes (bs : List Byte) : Option Profile := do
  let pitch ← Pitch.ofCode (at8 bs 1)
  let underscore ← underscoreOfByte (bs.getD 3 0)
  let petals ← petalEntries ((bs.drop 4).take 288)
  if headerAllowed (at8 bs 0) (at8 bs 2) ∧ petals.length = 96 ∧ underscoreAllowed petals underscore then
    some { code := at8 bs 0, pitch := pitch, spaceWidth := at8 bs 2, underscore := underscore,
           petals := petals }
  else none

/-- The four header bytes of a profile slot, with the wheel code given (0 while it is written). -/
def Staging.headerBytes (g : Staging) (code : Nat) : List Byte :=
  [byte code, byte g.pitch.code, byte g.spaceWidth, optByte g.underscore]

/-- R185: the 320 bytes of a profile slot, from a staging buffer that holds all 96 petals. -/
def Staging.image (g : Staging) : List Byte :=
  g.headerBytes g.code ++
    g.petals.flatMap (fun p => match p with | some e => e.bytes | none => [0, 0, 0]) ++
    List.replicate 28 0

/-- The profile a complete staging buffer describes. -/
def Staging.profile (g : Staging) : Profile :=
  { code := g.code, pitch := g.pitch, spaceWidth := g.spaceWidth, underscore := g.underscore,
    petals := g.petals.filterMap id }

/-! ### Positions -/

/-- The two-byte positions of a SET-TABS body; none when a byte is left over. -/
def positions : List Byte → Option (List Nat)
  | [] => some []
  | hi :: lo :: rest => do
    let ps ← positions rest
    some (num16 hi lo :: ps)
  | _ => none

/-- R118: a position put into an increasing list that has no duplicates. -/
def insertPosition (p : Nat) : List Nat → List Nat
  | [] => [p]
  | q :: qs => if p < q then p :: q :: qs else if p = q then q :: qs else q :: insertPosition p qs

/-- Strictly increasing. -/
def increasing : List Nat → Bool
  | [] => true
  | [_] => true
  | a :: b :: rest => a < b && increasing (b :: rest)

/-! ### Form watches and composites -/

/-- R119: the greatest multiple of the span not above the position. -/
def alignDown (position span : Nat) : Nat := position / span * span

def Watch.bytes (w : Watch) : List Byte :=
  be16 w.position ++ [byte w.span, byte w.kind.code, byte (boolCode w.enabled)]

/-- R119: the fields of a watch, when each lies within its values; the position aligned down. -/
def Watch.ofFields (position span kind enable : Nat) : Option Watch := do
  let k ← WatchKind.ofCode kind
  let e ← boolOfCode enable
  if position ≤ 1800 ∧ (span = 1 ∨ span = 2 ∨ span = 4 ∨ span = 8) then
    some { position := alignDown position span, span := span, kind := k, enabled := e }
  else none

/-- R165: a watch of the settings record, whose position must be aligned as it stands. -/
def Watch.ofImage (bs : List Byte) (i : Nat) : Option Watch := do
  let w ← Watch.ofFields (at16 bs i) (at8 bs (i + 2)) (at8 bs (i + 3)) (at8 bs (i + 4))
  if w.position = at16 bs i then some w else none

def Composite.bytes (c : Composite) : List Byte := [c.code, c.base, c.accent]

/-- R54: the codes an entry may hold. -/
def Composite.allowed (c : Composite) : Bool :=
  isGlyphCode c.code && isGlyphCode c.base && isGlyphCode c.accent && c.base != c.code &&
    c.accent != c.code

/-- `n` composite entries from byte `i` on. -/
def compositesAt (bs : List Byte) (i : Nat) : Nat → List Composite
  | 0 => []
  | n + 1 =>
    { code := bs.getD i 0, base := bs.getD (i + 1) 0, accent := bs.getD (i + 2) 0 } ::
      compositesAt bs (i + 3) n

def tabsAt (bs : List Byte) (i : Nat) : Nat → List Nat
  | 0 => []
  | n + 1 => at16 bs i :: tabsAt bs (i + 2) n

/-! ### The settings record (R165, R185) -/

/-- What a settings record holds. -/
structure Settings where
  format : Format
  tabStops : List Nat
  watch1 : Watch
  watch2 : Watch
  composites : List Composite
  contrast : Nat
  volume : Nat
  mask : BitVec 16
  deriving DecidableEq, Repr

/-- R165: what is used where no valid record is found. -/
def Settings.default : Settings :=
  { format := .default, tabStops := [], watch1 := .default, watch2 := .default, composites := [],
    contrast := 8, volume := 2, mask := 0x07FF }

def padTo (n : Nat) (bs : List Byte) : List Byte := bs ++ List.replicate (n - bs.length) 0

/-- The 191 bytes before the check byte. -/
def Settings.fields (x : Settings) : List Byte :=
  x.format.bytes ++ [byte x.tabStops.length] ++ padTo 48 (x.tabStops.flatMap be16) ++ x.watch1.bytes ++
    x.watch2.bytes ++ [byte x.composites.length] ++ padTo 96 (x.composites.flatMap Composite.bytes) ++
    [byte x.contrast, byte x.volume] ++ be16 x.mask.toNat ++ List.replicate 18 0

/-- R166: the 192-byte image. -/
def Settings.image (x : Settings) : List Byte := x.fields ++ [checkByte x.fields]

/-- R165: the record in 192 bytes, when it is valid. Tab positions and composite entries beyond their counts are not
judged, whatever they hold (DESIGN CHOICE, log entry 32: the layout says only that they are written 0). -/
def Settings.ofImage (bs : List Byte) : Option Settings := do
  let format ← Format.ofBytes (bs.take 13)
  let w1 ← Watch.ofImage bs 62
  let w2 ← Watch.ofImage bs 67
  let nTabs := at8 bs 13
  let tabs := tabsAt bs 14 nTabs
  let nComposites := at8 bs 72
  let composites := compositesAt bs 73 nComposites
  let mask := at16 bs 171
  if bs.getD 191 0 = checkByte (bs.take 191) ∧ nTabs ≤ 24 ∧ increasing tabs ∧ tabs.all (· ≤ 1800) ∧
      nComposites ≤ 32 ∧ composites.all Composite.allowed ∧ (composites.map (·.code)).Nodup ∧
      at8 bs 169 ≤ 15 ∧ at8 bs 170 ≤ 3 ∧ mask < 2048 then
    some { format := format, tabStops := tabs, watch1 := w1, watch2 := w2, composites := composites,
           contrast := at8 bs 169, volume := at8 bs 170, mask := BitVec.ofNat 16 mask }
  else none

/-! ### The headers and the user-word slots -/

/-- R155: whether the first four bytes of memory match, for the greatest size code allowed. -/
def headerMatches (bs : List Byte) (maxCode : Nat) : Bool :=
  at8 bs 0 == 0xB7 && at8 bs 1 == 0x4E && at8 bs 2 == 1 && 1 ≤ at8 bs 3 && at8 bs 3 ≤ maxCode

/-- R140, R164: the dictionary status a dictionary header gives. -/
def dictionaryStatus (bs : List Byte) : DictStatus :=
  if at8 bs 0 = 0xD1 ∧ at8 bs 1 = 0x5C ∧ 1 ≤ at16 bs 2 ∧ at16 bs 2 ≤ 4096 then .valid (at16 bs 2)
  else .bad

/-- R157: the address of a user-word slot. -/
def userSlotAddress (slot : Nat) : Nat := 0x0200 + 16 * slot

/-- R157: the address of a profile slot. -/
def profileSlotAddress (slot : Nat) : Nat := 0x1200 + 320 * slot

/-- R157: where dictionary offsets count from. -/
def dictionaryBase : Nat := 0x3000

/-- R132, R140: how many bytes of a slot are read, given its first four: all of them in whole
transactions while its letters remain, four when its length is none of 2 to 15. A slot whose length is one of 2 to 15
is read to that length also where a letter value makes it free: R140's "a free slot takes one" is taken of a slot
that its length byte makes free (DESIGN CHOICE, log entry 25). -/
def userSlotBytes (bs : List Byte) : Nat :=
  let n := at8 bs 0
  if 2 ≤ n ∧ n ≤ 15 then 4 * ceilDiv (n + 1) 4 else 4

/-- R137: the letters a slot holds, from the bytes read of it; none when it reads as free. -/
def userSlotLetters (bs : List Byte) : Option (List Nat) :=
  let n := at8 bs 0
  let letters := ((bs.drop 1).take n).map BitVec.toNat
  if 2 ≤ n ∧ n ≤ 15 ∧ letters.all (fun v => 1 ≤ v && v ≤ 59) then some letters else none

/-- R138: the 16 bytes of a slot that holds a word. -/
def userSlotImage (letters : List Nat) : List Byte :=
  padTo 16 (byte letters.length :: letters.map byte)

/-- R138: the letter codes of a body: every one a letter, an apostrophe only between two letters. -/
def lettersAllowed : List Byte → Bool
  | [] => true
  | [c] => isLetterCode c
  | c :: d :: rest =>
    isLetterCode c &&
      (if isApostrophe d then
        match rest with
        | [] => false
        | e :: _ => isLetterCode e && lettersAllowed rest
      else lettersAllowed (d :: rest))

end Sys2Proof.Machine
end

