-- ==== Sys2Proof/Machine/Ops.lean ====
section
/-!
DEFINITION. The operations that several blocks share: raising an event into the report queue, queueing
a reply, asking for a one-shot, finding and changing cells and words, reading and writing the serial
memory, and asking the arbiter for it.
-/

namespace Sys2Proof.Machine

/-! ### Time -/

/-- An expiry is an event at its own time: the clock stands at it or, when the event comes late, later
(log entry 3). -/
def State.reach (s : State) (t : Time) : State := { s with now := max s.now t }

/-! ### The report queue (R179) -/

/-- R179: an event taken into a queue that holds an entry of its kind, or none. -/
def coalesce (k : ReportKind) (reason : Nat) (detail : List Byte) (q : List ReportEntry) :
    List ReportEntry :=
  if q.any (fun e => e.kind == k) then
    q.map fun e =>
      if e.kind = k then
        { e with occurrences := min 255 (e.occurrences + 1), reason := reason, detail := detail }
      else e
  else q ++ [{ kind := k, occurrences := 1, reason := reason, detail := detail }]

/-- R179: a block raises an event of kind `k`; nothing happens while the kind is masked. -/
def raise (k : ReportKind) (reason : Nat) (detail : List Byte) (s : State) : State :=
  if s.link.mask.getLsbD k.index then
    { s with link := { s.link with reports := coalesce k reason detail s.link.reports } }
  else s

/-! ### One-shots (R172) -/

/-- R172: what came of a one-shot asked for. -/
inductive SoundOutcome where
  | playing | queued | droppedTone | droppedMuted | droppedBellOff | droppedFull
  deriving DecidableEq, Repr

/-- R172: the first case that holds decides. -/
def oneShotOutcome (x : Sounder) (o : OneShot) : SoundOutcome :=
  if x.tone then .droppedTone
  else if x.volume = 0 then .droppedMuted
  else if o = .bell ∧ x.bellEnable = false then .droppedBellOff
  else if x.playing = none then .playing
  else if Config.oneShotsMax ≤ x.queue.length then .droppedFull
  else .queued

/-- R172: a one-shot is asked for. -/
def askSound (o : OneShot) (s : State) : State :=
  match oneShotOutcome s.sounder o with
  | .playing =>
    { s with sounder := { s.sounder with playing := some { shot := o, ends := s.now + o.length } } }
  | .queued => { s with sounder := { s.sounder with queue := s.sounder.queue ++ [o] } }
  | _ => s

/-! ### Cells (R6, R7) -/

/-- R6: the end of a cell. -/
def Cell.stop (c : Cell) : Nat := c.start + c.advance

/-- Whether a cell is a GLYPH or COMPOSITE cell. -/
def Cell.isInk (c : Cell) : Bool := c.kind == .glyph || c.kind == .composite

def Cell.isHeld (c : Cell) : Bool := c.state == .held

/-- R7: the index of the LINE-END cell. -/
def lineEndIndex (cells : List Cell) : Option Nat := cells.findIdx? (fun c => c.kind == .lineEnd)

def hasLineEnd (cells : List Cell) : Bool := cells.any (fun c => c.kind == .lineEnd)

/-- R7: the cells of the composing line. -/
def composingCells (cells : List Cell) : List Cell :=
  match lineEndIndex cells with
  | none => cells
  | some i => cells.drop (i + 1)

/-- R7: the cells of the paper line, the LINE-END cell not among them. -/
def paperCells (cells : List Cell) : List Cell :=
  match lineEndIndex cells with
  | none => []
  | some i => cells.take i

def findCell (cells : List Cell) (id : Nat) : Option Cell := cells.find? (fun c => c.id == id)

def modifyCells (id : Nat) (f : Cell → Cell) (cells : List Cell) : List Cell :=
  cells.map fun c => if c.id = id then f c else c

/-- A cell of the list changed in place. -/
def modifyCell (id : Nat) (f : Cell → Cell) (s : State) : State :=
  { s with line := { s.line with cells := modifyCells id f s.line.cells } }

def setCellState (id : Nat) (x : CellState) (s : State) : State :=
  modifyCell id (fun c => { c with state := x }) s

/-- The first number from `next` on, counting upward and past 255 to 0, that is not among the used. -/
def freeId (next : Nat) (used : List Nat) : Nat :=
  (((List.range 256).map fun k => (next + k) % 256).find? fun n => !used.contains n).getD next

/-! ### Words (R126) -/

def findWord (words : List Word) (id : Nat) : Option Word := words.find? (fun w => w.id == id)

def modifyWord (id : Nat) (f : Word → Word) (s : State) : State :=
  { s with spelling :=
      { s.spelling with words := s.spelling.words.map fun w => if w.id = id then f w else w } }

/-- R126: a word's cells, in list order: those that carry its id. -/
def wordCells (cells : List Cell) (id : Nat) : List Cell := cells.filter fun c => c.word == some id

/-- R129: the letter values of a word. -/
def wordLetters (cells : List Cell) (id : Nat) : List Nat :=
  (wordCells cells id).map fun c => letterValue (c.glyph.getD 0)

/-- R141, R150: the live words that are UNKNOWN and not accepted. -/
def unknownWords (words : List Word) : List Word :=
  words.filter fun w => w.state == .unknown && !w.accepted

/-! ### The serial memory's bytes -/

/-- What a byte reads as that nothing has written: erased. Log entry 5. -/
def erasedByte : Byte := 0xFF

/-- Addresses strictly rising, and no entry equal to what an unlisted address reads as. -/
def Memory.wf : Memory → Bool
  | [] => true
  | [c] => c.2 != erasedByte
  | c :: d :: rest => c.2 != erasedByte && c.1 < d.1 && Memory.wf (d :: rest)

def Memory.read (m : Memory) (a : Nat) : Byte :=
  match m.find? fun c => c.1 == a with
  | some c => c.2
  | none => erasedByte

/-- A byte written; the canonical form is kept. -/
def Memory.write (a : Nat) (b : Byte) : Memory → Memory
  | [] => if b = erasedByte then [] else [(a, b)]
  | c :: rest =>
    if a < c.1 then (if b = erasedByte then c :: rest else (a, b) :: c :: rest)
    else if a = c.1 then (if b = erasedByte then rest else (a, b) :: rest)
    else c :: Memory.write a b rest

/-- Bytes written from an address upward. -/
def Memory.writeAll (a : Nat) : List Byte → Memory → Memory
  | [], m => m
  | b :: bs, m => Memory.writeAll (a + 1) bs (m.write a b)

def Memory.readAll (m : Memory) (a n : Nat) : List Byte := (List.range n).map fun k => m.read (a + k)

/-- Four bytes read with an address width; a memory of another width, or none, leaves the line at its
idle level (log entry 5). A memory that is still busy answers with its bytes all the same (DESIGN CHOICE, log entry
20). -/
def Chip.read4 (c : Chip) (w : AddressWidth) (a : Nat) : List Byte :=
  if c.width = some w then c.cells.readAll a 4 else List.replicate 4 0xFF

/-- R158: the address width in use. -/
def MemoryState.width : MemoryState → AddressWidth
  | .threeByte => .three
  | _ => .two

/-! ### The arbiter's lists (R159) -/

/-- R159: the level of a request. -/
def Request.level (r : Request) : Nat :=
  match r.access, r.user with
  | .read _, .directory => 1
  | .read _, .fetch => 1
  | .read _, _ => 2
  | .write _ _, .dictWrite => 4
  | .write _ _, _ => 3
  | .statusWrite _, _ => 3

/-- R159: a request joins the tail of its level's list. -/
def MemoryController.ask (m : MemoryController) (r : Request) : MemoryController :=
  match r.level with
  | 1 => { m with level1 := m.level1 ++ [r] }
  | 2 => { m with level2 := m.level2 ++ [r] }
  | 3 => { m with level3 := m.level3 ++ [r] }
  | _ => { m with level4 := m.level4 ++ [r] }

def askMemory (user : User) (access : Access) (s : State) : State :=
  { s with memory := s.memory.ask { user := user, access := access } }

/-- R159, R158: a user gives up its operation: its waiting request is withdrawn, and the result of a
transaction of its own that is running will not be used. -/
def MemoryController.withdraw (m : MemoryController) (u : User) : MemoryController :=
  { m with
    level1 := m.level1.filter fun r => r.user != u
    level2 := m.level2.filter fun r => r.user != u
    level3 := m.level3.filter fun r => r.user != u
    level4 := m.level4.filter fun r => r.user != u
    current := m.current.map fun t => if t.request.user = u then { t with live := false } else t }

def withdrawUser (u : User) (s : State) : State := { s with memory := s.memory.withdraw u }

/-- The oldest request of the highest level that holds one, taken from its list. -/
def MemoryController.next (m : MemoryController) : Option (Request × MemoryController) :=
  match m.level1, m.level2, m.level3, m.level4 with
  | r :: rest, _, _, _ => some (r, { m with level1 := rest })
  | [], r :: rest, _, _ => some (r, { m with level2 := rest })
  | [], [], r :: rest, _ => some (r, { m with level3 := rest })
  | [], [], [], r :: rest => some (r, { m with level4 := rest })
  | [], [], [], [] => none

/-- How many requests wait. -/
def MemoryController.waitingCount (m : MemoryController) : Nat :=
  m.level1.length + m.level2.length + m.level3.length + m.level4.length

/-- R155: whether detection is still running; no transaction is granted before it ends. -/
def MemoryController.detecting (m : MemoryController) : Bool := m.detection != .none

/-- Whether the memory is free to be granted. -/
def MemoryController.free (m : MemoryController) : Bool :=
  m.current.isNone && !m.busy && !m.detecting

/-! ### The ends of operations that write (R158, R160, R167) -/

/-- R167: the operation that a user's write belongs to. -/
def operationOf (s : State) : User → MemoryOperation
  | .userWord =>
    match s.spelling.userOp with
    | some { kind := .remove, .. } => .removeWord
    | _ => .addWord
  | .store => .profileStore
  | .settings => .settings
  | .protect => .protect
  | .dictWrite => .dictWrite
  | _ => .dictClose

/-- The address a MEMORY report carries; a status write has none (log entry 9). -/
def Access.addressBytes : Access → List Byte
  | .read a => be24 a
  | .write a _ => be24 a
  | .statusWrite _ => [0xFF, 0xFF, 0xFF]

/-- An entry of the profile directory becomes free. -/
def freeDirectoryEntry (slot : Nat) (w : WheelUnit) : WheelUnit :=
  { w with directory := w.directory.set slot none }

/-- R52: a store is over: the staging becomes EMPTY. -/
def endStore (s : State) : State :=
  { s with wheel := { s.wheel with store := none, staging := { s.wheel.staging with state := .empty } } }

/-- R158, R160: the operation of a failed or refused write ends at that transaction: an ADD-WORD or
REMOVE-WORD leaves the index (R138, R139), a store leaves its directory entry free (R52), a settings
save and a DICT-WRITE leave the bytes already written, a SET-PROTECT leaves the level (R161). -/
def endOperation (u : User) (s : State) : State :=
  match u with
  | .userWord => { s with spelling := { s.spelling with userOp := none } }
  | .store =>
    match s.wheel.store with
    | some st => endStore { s with wheel := freeDirectoryEntry st.slot s.wheel }
    | none => endStore s
  | .settings => { s with memory := { s.memory with save := none } }
  | .protect => { s with memory := { s.memory with protectChange := none } }
  | .dictWrite => { s with memory := { s.memory with dictWrite := none } }
  | _ => s

/-- R158, R160: a write fails, or is refused at grant: its MEMORY event and the end of its operation.
Reason 1 is FAILED, 2 is PROTECTED. -/
def failWrite (reason : Nat) (r : Request) (s : State) : State :=
  endOperation r.user
    (raise .memory reason ([byte (operationOf s r.user).code] ++ r.access.addressBytes) s)

/-- R160: whether a request would write into a region that the current level covers. -/
def Request.isRefused (level : Nat) (r : Request) : Bool :=
  match r.access with
  | .write a _ => isCovered level a
  | _ => false

def Access.isWrite : Access → Bool
  | .read _ => false
  | _ => true

/-- A transaction begins. A write sets the memory's write-enable latch, and its busy flag is polled for
at most 20 ms (R158; log entry 3 on where the 20 ms are counted from). -/
def beginTransaction (r : Request) (s : State) : State :=
  if r.access.isWrite then
    { s with
      memory := { s.memory with
        current := some { request := r, live := true, busyUntil := some (s.now + Config.busyLimit) } }
      chip := { s.chip with writeLatch := true, busyFlag := true } }
  else
    { s with memory := { s.memory with
        current := some { request := r, live := true, busyUntil := none } } }

/-- R159: the arbiter grants, refusing writes into covered regions (R160) until one request is granted
or none waits. -/
def grantWithin : Nat → State → State
  | 0, s => s
  | fuel + 1, s =>
    if s.memory.free then
      match s.memory.next with
      | none => s
      | some (r, m) =>
        if r.isRefused s.memory.protect then grantWithin fuel (failWrite 2 r { s with memory := m })
        else beginTransaction r { s with memory := m }
    else s

/-- R159: the arbiter's judgement. Each refusal takes one request, so this many turns are enough. -/
def grant (s : State) : State := grantWithin s.memory.waitingCount s

end Sys2Proof.Machine
end

