-- ==== Sys2Proof/Machine/Spelling.lean ====
section
/-!
DEFINITION. The Spelling Unit's words (R124 to R130, R134, R136, R140): how cells become words, how a
completed word is classified, how a word loses cells, and the changes of the unit's state.
The reads and writes of lookups and user words are in Lookup.lean.
-/

namespace Sys2Proof.Machine

/-- R141: a SPELL event. -/
def raiseSpell (reason : Nat) (detail : List Byte) (s : State) : State := raise .spell reason detail s

/-- R133: a lookup is abandoned. -/
def abandonLookup (s : State) : State :=
  withdrawUser .lookup { s with spelling := { s.spelling with lookup := none } }

/-- R136: an entry put in the most recent place; the list keeps at most 16. -/
def enterIgnored (e : IgnoreEntry) (l : List IgnoreEntry) : List IgnoreEntry :=
  (e :: l.filter fun x => x != e).take Config.ignoreMax

/-! ### Classification (R128) -/

/-- R128: what a completed word becomes. -/
inductive Verdict where
  | offSkipped | single | long | digit | ignored | unavailable | queueFull | queued
  deriving DecidableEq, Repr

def cellBefore (cells : List Cell) (id : Nat) : Option Cell :=
  (cells.takeWhile fun c => c.id != id).getLast?

def cellAfter (cells : List Cell) (id : Nat) : Option Cell :=
  ((cells.dropWhile fun c => c.id != id).drop 1).head?

def Cell.isDigit (c : Cell) : Bool := c.kind == .glyph && isDigitCode (c.glyph.getD 0)

/-- R128: a digit directly before the word's first cell or directly after its last; a LINE-END cell
between would itself be the neighbour, so the neighbour is on the same line. -/
def digitBeside (cells : List Cell) (w : Word) : Bool :=
  (cellBefore cells w.first).any Cell.isDigit || (cellAfter cells w.last).any Cell.isDigit

/-- R128: the tests in their order. -/
def classification (s : State) (w : Word) (entry : IgnoreEntry) : Verdict :=
  if s.composer.format.spelling = .off then .offSkipped
  else if w.count = 1 then .single
  else if 24 < w.count then .long
  else if digitBeside s.line.cells w then .digit
  else if s.spelling.ignoreList.contains entry then .ignored
  else if s.spelling.unit = .unavailable then .unavailable
  else if Config.checkQueueMax ≤ s.spelling.checkQueue.length then .queueFull
  else .queued

/-- R128: when the hold mark is set in the event of completion. -/
def holdAtCompletion (s : State) (id : Nat) : Bool :=
  s.composer.format.spelling == .hold && s.composer.format.mode != .direct &&
    (wordCells s.line.cells id).all Cell.isHeld

def Verdict.state : Verdict → WordState
  | .offSkipped => .skipped
  | .single => .good
  | .long => .skipped
  | .digit => .skipped
  | .ignored => .good
  | .unavailable => .skipped
  | .queueFull => .skipped
  | .queued => .queued

def Verdict.skip : Verdict → Option SkipReason
  | .long => some .long
  | .digit => some .digit
  | .unavailable => some .unavailable
  | .queueFull => some .unavailable
  | _ => none

/-- R128: the completed word takes its state and perhaps its hold mark. -/
def classify (id : Nat) (s : State) : State :=
  match findWord s.spelling.words id with
  | none => s
  | some w =>
    let letters := wordLetters s.line.cells id
    let entry : IgnoreEntry := { letters := letters, hash := wordHash letters }
    let v := classification s w entry
    if v = .offSkipped then modifyWord id (fun w => { w with state := .skipped, skip := none }) s
    else
      let hold := holdAtCompletion s id
      let s := modifyWord id (fun w =>
        { w with hash := entry.hash, state := v.state, skip := v.skip, holdMark := w.holdMark || hold }) s
      match v with
      | .ignored =>
        { s with spelling :=
            { s.spelling with ignoreList := enterIgnored entry s.spelling.ignoreList } }
      | .queueFull => raiseSpell 2 [byte id] s
      | .queued =>
        { s with spelling := { s.spelling with checkQueue := s.spelling.checkQueue ++ [id] } }
      | _ => s

/-! ### The open word (R124, R125) -/

def closeOpenWord (s : State) : State :=
  { s with spelling := { s.spelling with openWord := .none, pendingApostrophe := none } }

/-- R125: the open word is completed; a pending apostrophe stays outside it. -/
def completeOpenWord (s : State) : State :=
  match s.spelling.openWord with
  | .none => closeOpenWord s
  | .word id => classify id (closeOpenWord s)
  | .unlisted _ => closeOpenWord s

/-- R124: a letter cell begins a word, or an unlisted run when 100 words are live. The hash of a record that no
completion has computed yet is 0 (DESIGN CHOICE, log entry 30). -/
def beginWord (cell : Nat) (s : State) : State :=
  if Config.wordsMax ≤ s.spelling.words.length then
    raiseSpell 1 [byte cell]
      { s with spelling := { s.spelling with openWord := .unlisted [cell], pendingApostrophe := none } }
  else
    let id := freeId s.spelling.nextWordId (s.spelling.words.map (·.id))
    let w : Word :=
      { id := id, first := cell, last := cell, count := 1, hash := 0, state := .opened, skip := none,
        generation := 0, holdMark := false, accepted := false }
    modifyCell cell (fun c => { c with word := some id })
      { s with spelling :=
          { s.spelling with
            words := s.spelling.words ++ [w], nextWordId := (id + 1) % 256, openWord := .word id,
            pendingApostrophe := none } }

/-- R124: cells join the open word, or the unlisted run. -/
def joinOpenWord (ids : List Nat) (s : State) : State :=
  match s.spelling.openWord with
  | .none => s
  | .word id =>
    let s := modifyWord id (fun w =>
      { w with count := w.count + ids.length, last := ids.getLast?.getD w.last }) s
    let join (c : Cell) : Cell := if ids.contains c.id then { c with word := some id } else c
    { s with
      line := { s.line with cells := s.line.cells.map join }
      spelling := { s.spelling with pendingApostrophe := none } }
  | .unlisted run =>
    { s with spelling :=
        { s.spelling with openWord := .unlisted (run ++ ids), pendingApostrophe := none } }

/-- The last cell of the open word or unlisted run. -/
def openLast (s : State) : Option Nat :=
  match s.spelling.openWord with
  | .none => none
  | .word id => (findWord s.spelling.words id).map (·.last)
  | .unlisted run => run.getLast?

/-- R124: the Spelling Unit is told of a new cell of the list other than a LINE-END cell. -/
def spellCell (cell : Nat) (s : State) : State :=
  match findCell s.line.cells cell with
  | none => s
  | some c =>
    let before := (cellBefore s.line.cells cell).map (·.id)
    let afterLast := (openLast s).isSome && before == openLast s && s.spelling.pendingApostrophe.isNone
    let afterApostrophe := s.spelling.pendingApostrophe.isSome && before == s.spelling.pendingApostrophe
    if c.isInk && isLetterCode (c.glyph.getD 0) then
      if afterLast then joinOpenWord [cell] s
      else if afterApostrophe then joinOpenWord (s.spelling.pendingApostrophe.toList ++ [cell]) s
      else beginWord cell (completeOpenWord s)
    else if c.isInk && isApostrophe (c.glyph.getD 0) && afterLast then
      { s with spelling := { s.spelling with pendingApostrophe := some cell } }
    else completeOpenWord s

/-- Whether the open word (or unlisted run) has a cell before a place of the list. -/
def openWordBefore (cells : List Cell) (s : State) : Bool :=
  match s.spelling.openWord with
  | .none => false
  | .word id => cells.any fun c => c.word == some id
  | .unlisted run => cells.any fun c => run.contains c.id

/-- R125: at the creation of a LINE-END cell the open word is completed when its cells stand before
it; a word that a wrap moved stands after it and stays open. Log entry 12 on a word that stands on
both sides. -/
def spellLineEnd (s : State) : State :=
  if openWordBefore (paperCells s.line.cells) s then completeOpenWord s else s

/-! ### A word loses cells (R127) -/

/-- R127, case 1: the record of a word without cells is removed. -/
def removeWordRecord (id : Nat) (s : State) : State :=
  let checking := s.spelling.lookup.any fun l => l.word == id
  let s := { s with spelling :=
    { s.spelling with
      words := s.spelling.words.filter fun w => w.id != id
      checkQueue := s.spelling.checkQueue.filter fun q => q != id } }
  let s := if s.spelling.openWord = .word id then closeOpenWord s else s
  if checking then abandonLookup s else s

/-- R127, case 3: a completed word is reopened under a new generation. -/
def reopenWord (id : Nat) (s : State) : State :=
  let checking := s.spelling.lookup.any fun l => l.word == id
  let s := modifyWord id (fun w =>
    { w with state := .opened, skip := none, generation := (w.generation + 1) % 256, holdMark := false,
             accepted := false }) s
  let s := { s with spelling :=
    { s.spelling with checkQueue := s.spelling.checkQueue.filter fun q => q != id } }
  if checking then abandonLookup s else s

/-- R127: one word is handled after cells of it have left the list. -/
def wordLoses (byHeldRemoval : Bool) (id : Nat) (s : State) : State :=
  match findWord s.spelling.words id with
  | none => s
  | some w =>
    match wordCells s.line.cells id with
    | [] => removeWordRecord id s
    | c :: cs =>
      let last := ((c :: cs).getLast?.getD c).id
      let s := modifyWord id (fun w =>
        { w with count := (c :: cs).length, first := c.id, last := last }) s
      if w.state = .opened then s
      else
        let s := reopenWord id s
        if byHeldRemoval ∧ s.spelling.openWord = .none ∧ (s.line.cells.getLast?.map (·.id)) = some last
        then { s with spelling := { s.spelling with openWord := .word id, pendingApostrophe := none } }
        else classify id s

/-- The words that some removed cells belonged to, each once, in the order that `List.dedup` leaves: by the last
of each word's removed cells. The book gives no order; words that complete anew join the check queue in this one
(DESIGN CHOICE, log entry 29). -/
def wordsOf (removed : List Cell) : List Nat := (removed.filterMap (·.word)).dedup

/-- R124, R127: the unlisted run without the cells that have left the list; without a cell it is over, and
with it the apostrophe that waited at its end. -/
def shortenRun (gone : List Nat) (s : State) : State :=
  match s.spelling.openWord with
  | .unlisted run =>
    match run.filter fun c => !gone.contains c with
    | [] => closeOpenWord s
    | r :: rs => { s with spelling := { s.spelling with openWord := .unlisted (r :: rs) } }
  | .none | .word _ => s

/-- R127: the Spelling Unit is told, after the last removal of an event, of the cells removed. -/
def spellRemoved (byHeldRemoval : Bool) (removed : List Cell) (s : State) : State :=
  let gone := removed.map (·.id)
  let s := { s with spelling :=
    { s.spelling with
      pendingApostrophe := s.spelling.pendingApostrophe.filter fun c => !gone.contains c } }
  (wordsOf removed).foldl (fun s id => wordLoses byHeldRemoval id s) (shortenRun gone s)

/-! ### Unit states and the spelling mode (R134, R140) -/

/-- R140: every QUEUED word, and the word being looked up, becomes SKIPPED; the lookup is abandoned. -/
def skipWaiting (reason : Option SkipReason) (s : State) : State :=
  let skipOne (w : Word) : Word :=
    if w.state = .queued ∨ w.state = .checking then { w with state := .skipped, skip := reason } else w
  abandonLookup { s with spelling :=
    { s.spelling with words := s.spelling.words.map skipOne, checkQueue := [] } }

/-- R140: the unit becomes UNAVAILABLE, with a reason (0 ABSENT, 1 BAD-DICTIONARY, 2 DOWNLOAD). A unit
that is so already does not change. -/
def becomeUnavailable (reason : Nat) (s : State) : State :=
  if s.spelling.unit = .unavailable then s
  else
    raiseSpell 5 [byte UnitState.unavailable.code, byte reason]
      (skipWaiting (some .unavailable) { s with spelling := { s.spelling with unit := .unavailable } })

/-- R140: the unit becomes AVAILABLE. -/
def becomeAvailable (s : State) : State :=
  if s.spelling.unit = .available then s
  else
    raiseSpell 4 [byte UnitState.available.code]
      { s with spelling := { s.spelling with unit := .available } }

def setDictStatus (x : DictStatus) (s : State) : State :=
  { s with spelling := { s.spelling with status := x } }

/-- R134: an accepted change of the spelling mode acts on the words. -/
def spellingModeChanged (old new : SpellingMode) (s : State) : State :=
  let s :=
    if old = .hold ∧ new ≠ .hold then
      { s with spelling :=
          { s.spelling with words := s.spelling.words.map fun w => { w with holdMark := false } } }
    else s
  if old ≠ .off ∧ new = .off then skipWaiting none s else s

end Sys2Proof.Machine
end

