-- ==== Sys2Proof/Machine/Line.lean ====
section
/-!
DEFINITION. The Line Memory: the release advance (R12), the removal of cells (R9, R145), the end of a
line (R8) and its alignment (R34 to R36), and the places cells take (R27 to R33).
-/

namespace Sys2Proof.Machine

/-! ### Release (R12) -/

/-- R134: a word closes its release unit. -/
def Word.closes (w : Word) : Bool :=
  w.holdMark &&
    (w.state == .queued || w.state == .checking || (w.state == .unknown && !w.accepted))

/-- Whether the word of a cell closes. -/
def cellCloses (words : List Word) (c : Cell) : Bool :=
  match c.word with
  | none => false
  | some id => (findWord words id).any Word.closes

/-- R12: whether the paper line is one release unit: it ended in LINE mode and is not released-flush. -/
def paperIsUnit (l : LineMemory) : Bool :=
  match l.paper with
  | none => false
  | some r => !r.releasedFlush && r.ended.any fun e => e.mode == .line

/-- The paper line and its LINE-END cell. -/
def endedCells (cells : List Cell) : List Cell :=
  match lineEndIndex cells with
  | none => []
  | some i => cells.take (i + 1)

/-- R12: whether a cell belongs to a closed release unit. -/
def inClosedUnit (s : State) (c : Cell) : Bool :=
  if paperIsUnit s.line ∧ (endedCells s.line.cells).any (fun d => d.id == c.id) then
    (endedCells s.line.cells).any (cellCloses s.spelling.words)
  else cellCloses s.spelling.words c

/-- R12: the walk of the release advance: HELD cells become PENDING up to and including the mark, and
stop before the first that belongs to a closed unit. -/
def advanceTo (closed : Cell → Bool) (mark : Nat) : List Cell → List Cell
  | [] => []
  | c :: rest =>
    if c.isHeld ∧ closed c then c :: rest
    else
      let c' := if c.isHeld then { c with state := .pending } else c
      c' :: (if c.id = mark then rest else advanceTo closed mark rest)

/-- R12: the release advance. -/
def releaseAdvance (s : State) : State :=
  match s.line.releaseMark with
  | none => s
  | some m =>
    { s with line := { s.line with cells := advanceTo (inClosedUnit s) m s.line.cells } }

/-- R12, R14, R15: the mark moves to a cell, and the advance runs. -/
def releaseTo (cell : Nat) (s : State) : State :=
  releaseAdvance { s with line := { s.line with releaseMark := some cell } }

/-! ### Removal (R9, R145) -/

/-- R9: where the release mark stands after cells have been removed. -/
def markAfterRemoval (gone : Cell → Bool) (cells : List Cell) (mark : Option Nat) : Option Nat :=
  match mark with
  | none => none
  | some m =>
    if cells.any fun c => c.id == m && gone c then
      (((cells.takeWhile fun c => c.id != m).filter fun c => !gone c).getLast?).map (·.id)
    else some m

/-- R145: the window start after cells have been removed. -/
def windowAfterRemoval (gone : Cell → Bool) (cells : List Cell) (ws : Nat) : Nat :=
  if cells.all gone then 0 else ws - ((cells.take ws).filter gone).length

/-- R145, R149: the window start corrected for the render at the end of the event; a render in which the
window start changes restarts the cursor timer, with the phase ON. -/
def correctWindow (ws : Nat) (s : State) : Display :=
  let d := s.display
  if d.rendered && ws != d.windowStart then
    { d with
      windowStart := ws, cursorBlinkOn := true, cursorBlinkDue := s.now + Config.cursorBlinkTime }
  else { d with windowStart := ws }

/-- R9: cells leave the list; the release mark, the open run and the window follow. The Spelling Unit
is told apart from this, once for each event (R127). -/
def dropCells (gone : Cell → Bool) (s : State) : State :=
  let cells := s.line.cells
  let removed := (cells.filter gone).map (·.id)
  { s with
    line := { s.line with
      cells := cells.filter fun c => !gone c
      releaseMark := markAfterRemoval gone cells s.line.releaseMark }
    composer := { s.composer with openRun := s.composer.openRun.filter fun c => !removed.contains c }
    display := correctWindow (windowAfterRemoval gone cells s.display.windowStart) s }

/-- R9, R127: cells are removed, the Spelling Unit is told, and the release advance runs. -/
def removeCells (byHeldRemoval : Bool) (gone : Cell → Bool) (s : State) : State :=
  releaseAdvance
    (spellRemoved byHeldRemoval (s.line.cells.filter gone) (dropCells gone s))

/-! ### Alignment (R34 to R36) -/

/-- What alignment made of a line. -/
structure Aligned where
  cells : List Cell
  abandoned : Bool
  deriving DecidableEq, Repr

/-- The last GLYPH or COMPOSITE cell of a line. -/
def lastInk (line : List Cell) : Option Cell := (line.filter Cell.isInk).getLast?

/-- R34: the trailing cells: those after the last GLYPH or COMPOSITE cell. -/
def trailingCells (line : List Cell) : List Cell :=
  (line.reverse.takeWhile fun c => !c.isInk).reverse

/-- The cells up to and including the last GLYPH or COMPOSITE cell. -/
def bodyCells (line : List Cell) : List Cell :=
  (line.reverse.dropWhile fun c => !c.isInk).reverse

/-- R34: G, the SPACE cells after the first GLYPH or COMPOSITE cell and before the last. -/
def innerSpaces (line : List Cell) : Nat :=
  (((bodyCells line).dropWhile fun c => !c.isInk).filter fun c => c.kind == .space).length

/-- R36: the trailing cells collapse to the end of the last GLYPH or COMPOSITE cell. -/
def collapse (at_ : Nat) (trailing : List Cell) : List Cell :=
  trailing.map fun c => { c with start := at_, advance := 0 }

/-- R35: the walk of justification; `inked` says whether a GLYPH or COMPOSITE cell has been passed, `k`
counts the inner spaces passed and `gain` what they have gained. -/
def justifyCells (q r : Nat) : Bool → Nat → Nat → List Cell → List Cell
  | _, _, _, [] => []
  | inked, k, gain, c :: rest =>
    if inked ∧ c.kind = .space then
      let g := q + if k < r then 1 else 0
      { c with start := c.start + gain, advance := c.advance + g } ::
        justifyCells q r inked (k + 1) (gain + g) rest
    else { c with start := c.start + gain } :: justifyCells q r (inked || c.isInk) k gain rest

def moveRight (by_ : Nat) (cells : List Cell) : List Cell :=
  cells.map fun c => { c with start := c.start + by_ }

/-- R36: a line moved, its trailing cells collapsed. -/
def withCollapsed (body trailing : List Cell) : List Cell :=
  body ++ collapse ((body.getLast?.map Cell.stop).getD 0) trailing

/-- R34: whether an ended line is aligned at all. -/
def alignmentApplies (flush : Bool) (e : LineEnding) (line : List Cell) : Bool :=
  e.mode == .line && !flush && line.all Cell.isHeld && line.any Cell.isInk

/-- R34 to R36: alignment of an ended line, its LINE-END cell included. E is the right margin less the
end of the last GLYPH or COMPOSITE cell (W − N). -/
def alignLine (flush : Bool) (e : LineEnding) (line : List Cell) : Aligned :=
  match lastInk line with
  | none => { cells := line, abandoned := false }
  | some l =>
    if alignmentApplies flush e line = false ∨ e.rightMargin < l.stop then
      { cells := line, abandoned := false }
    else
      let room := e.rightMargin - l.stop
      let body := bodyCells line
      let trailing := trailingCells line
      match e.alignment with
      | .left => { cells := line, abandoned := false }
      | .center => { cells := withCollapsed (moveRight (room / 2) body) trailing, abandoned := false }
      | .right => { cells := withCollapsed (moveRight room body) trailing, abandoned := false }
      | .justify =>
        let gaps := innerSpaces line
        if e.ending = .byReturn ∨ gaps = 0 then { cells := line, abandoned := false }
        else if 2 * e.spaceWidth < room / gaps then { cells := line, abandoned := true }
        else
          { cells := withCollapsed (justifyCells (room / gaps) (room % gaps) false 0 0 body) trailing
            abandoned := false }

/-! ### The active profile and the glyph map (R27, R53) -/

/-- The active profile. -/
def activeProfile (w : WheelUnit) : Option Profile :=
  match w.active with
  | none => none
  | some slot => (w.cache[slot]?).join

/-- R53: the petals the glyph map lists for a code. -/
def glyphPetals (w : WheelUnit) (c : Byte) : List Nat :=
  match w.glyphMap.find? fun e => e.code == c with
  | none => []
  | some e => e.petals

/-- R54: the entry of the composite table for a code. -/
def compositeOf (w : WheelUnit) (c : Byte) : Option Composite := w.composites.find? fun e => e.code == c

/-- R5: what a glyph code becomes, through the tables as they stand. -/
def glyphKind (w : WheelUnit) (c : Byte) : Option CellKind :=
  if glyphPetals w c ≠ [] then some .glyph
  else
    match compositeOf w c with
    | some e =>
      if glyphPetals w e.base ≠ [] ∧ glyphPetals w e.accent ≠ [] then some .composite else none
    | none => none

/-- The width of a petal of the active profile. -/
def petalWidth (w : WheelUnit) (petal : Nat) : Nat :=
  match activeProfile w with
  | none => 0
  | some p => ((p.petals[petal]?).map (·.width)).getD 0

/-- R27: the advance of a GLYPH or COMPOSITE cell. -/
def glyphAdvance (f : Format) (w : WheelUnit) (c : Byte) : Nat :=
  match f.pitch.advance with
  | some a => a
  | none =>
    let struck := if glyphPetals w c ≠ [] then c else ((compositeOf w c).map (·.base)).getD c
    match glyphPetals w struck with
    | [] => 0
    | p :: _ => petalWidth w p

/-- R27, R8: the advance of a SPACE, and the space width latched at a line end: 6 in PS when no
profile is active. -/
def spaceAdvance (f : Format) (w : WheelUnit) : Nat :=
  match f.pitch.advance with
  | some a => a
  | none =>
    match activeProfile w with
    | none => 6
    | some p => p.spaceWidth

/-! ### The end of a line (R8, R34) -/

def replaceEnded (new : List Cell) (cells : List Cell) : List Cell :=
  match lineEndIndex cells with
  | none => cells
  | some i => new ++ cells.drop (i + 1)

/-- R8, R15: the line ends: its record is filled in and becomes the paper line's, a new composing line
record is opened, and in LINE mode the line is aligned. The LINE-END cell stands in the list already. -/
def endLine (how : Ending) (s : State) : State :=
  let f := s.composer.format
  let e : LineEnding :=
    { rightMargin := f.rightMargin, alignment := f.alignment, spacing := f.spacing,
      spaceWidth := spaceAdvance f s.wheel, mode := f.mode, ending := how, moved := false }
  let old := s.line.composing
  let line := endedCells s.line.cells
  let aligned := alignLine old.releasedFlush e line
  let s := { s with
    line := { s.line with
      cells := replaceEnded aligned.cells s.line.cells
      paper := some { old with ended := some { e with moved := decide (aligned.cells ≠ line) } }
      composing := LineRecord.fresh f.leftMargin }
    zone := { s.zone with bellArmed := true } }
  if aligned.abandoned then raise .line 2 [] s else s

/-! ### Where an item would be placed (R28 to R33) -/

/-- R31, R33: the open word as a wrap takes it: empty when any cell of it is not HELD. -/
def wrapRun (s : State) : List Cell :=
  let run := s.line.cells.filter fun c => s.composer.openRun.contains c.id
  if run.all Cell.isHeld then run else []

/-- What the judgement of a glyph item comes to. -/
inductive GlyphPlacement where
  | notOnWheel
  | carriageEnd (start advance : Nat)
  | rightStop (start advance : Nat)
  | wrapRefused (start advance : Nat)
  | create (kind : CellKind) (start advance : Nat) (released : Bool)
  | wrap (kind : CellKind) (start advance : Nat)
  deriving DecidableEq, Repr

/-- R30 case 3: a GLYPH or COMPOSITE cell of the composing line stands before the open word. -/
def inkBeforeOpenRun (s : State) : Bool :=
  (composingCells s.line.cells).any fun c => c.isInk && !s.composer.openRun.contains c.id

/-- R30, R33: the cases in their order. -/
def placeGlyph (s : State) (code : Byte) : GlyphPlacement :=
  match glyphKind s.wheel code with
  | none => .notOnWheel
  | some kind =>
    let f := s.composer.format
    let p := s.composer.printPoint
    let a := glyphAdvance f s.wheel code
    if p + a ≤ f.rightMargin then .create kind p a false
    else if Config.carriageEnd < p + a then .carriageEnd p a
    else if s.composer.marginRelease then .create kind p a true
    else if f.mode = .direct ∨ f.wrap = false ∨ inkBeforeOpenRun s = false then .rightStop p a
    else
      let start := f.leftMargin + ((wrapRun s).map (·.advance)).sum
      if f.rightMargin < start + a then .wrapRefused p a else .wrap kind start a

/-- R29: what the judgement of a space item comes to. -/
inductive SpacePlacement where
  | carriageEnd (start advance : Nat)
  | create (start advance : Nat) (released : Bool)
  deriving DecidableEq, Repr

def placeSpace (s : State) : SpacePlacement :=
  let f := s.composer.format
  let p := s.composer.printPoint
  let a := spaceAdvance f s.wheel
  if p + a ≤ f.rightMargin then .create p a false
  else if s.composer.marginRelease then
    if p + a ≤ Config.carriageEnd then .create p a true else .carriageEnd p a
  else if p < f.rightMargin then .create p (f.rightMargin - p) false
  else .create p 0 false

/-- R28: the tab target; none where the print point stands at or beyond the right margin. -/
def tabTarget (s : State) : Option Nat :=
  let p := s.composer.printPoint
  let m := s.composer.format.rightMargin
  if m ≤ p then none
  else some ((s.zone.tabStops.find? fun t => p < t && t ≤ m).getD m)

end Sys2Proof.Machine
end

