-- ==== Sys2Proof/Machine/Zone.lean ====
section
/-!
DEFINITION. The Zone Monitor (R111 to R122): the conditions a subject matches, the ZONE events, the left
stop, the bell and the form watches. A subject is given by its start and its end.
-/

namespace Sys2Proof.Machine

/-- R111: the last position a subject covers. -/
def lastCovered (start stop : Nat) : Nat := if start < stop then stop - 1 else start

/-- R111, R119: whether a subject covers a position that a form watch covers. -/
def Watch.meets (w : Watch) (start stop : Nat) : Bool :=
  start < w.position + w.span && w.position ≤ lastCovered start stop

/-- R111: the matched conditions, one bit each, in the order of the table; `left` is L of the subject's
line. -/
def matched (s : State) (left start stop : Nat) : Nat :=
  let m := s.composer.format.rightMargin
  boolCode (m < stop || m ≤ start) + 2 * boolCode (start < left) +
    4 * boolCode (s.composer.format.zoneStart ≤ start) + 8 * boolCode (s.zone.watch1.meets start stop) +
    16 * boolCode (s.zone.watch2.meets start stop)

/-- R112: a ZONE event. `acting` is the bit number of the acting entry; `code` is the item's code or the
struck cell's id. -/
def zoneEvent (cause : ZoneCause) (acting : Option Nat) (left start stop : Nat) (code : Byte)
    (s : State) : State :=
  raise .zone cause.code
    ([optByte acting, byte (matched s left start stop)] ++ be16 start ++ be16 stop ++
      be16 s.composer.printPoint ++ [code]) s

/-- R113: an item refused at the right stop. -/
def refuseRightStop (start stop : Nat) (code : Byte) (s : State) : State :=
  askSound .bell (zoneEvent .rightStop (some 0) s.line.composing.leftMargin start stop code s)

/-- R113: an item refused at the carriage end. -/
def refuseCarriageEnd (start stop : Nat) (code : Byte) (s : State) : State :=
  askSound .error (zoneEvent .carriageEnd none s.line.composing.leftMargin start stop code s)

def setPrintPoint (p : Nat) (s : State) : State :=
  { s with composer := { s.composer with printPoint := p } }

/-- R114: the print point is to move back by a distance, judged at the left stop. -/
def backUp (distance : Nat) (code : Byte) (s : State) : State :=
  let p := s.composer.printPoint
  let left := s.line.composing.leftMargin
  if left + distance ≤ p then setPrintPoint (p - distance) s
  else if s.composer.marginRelease then
    { s with composer := { s.composer with printPoint := p - distance, marginRelease := false } }
  else
    zoneEvent .leftStop (some 1) left (p - distance) (p - distance) code
      (setPrintPoint (if left ≤ p then left else p) s)

/-- R116: the bell judgement of a new cell. -/
def judgeBell (c : Cell) (s : State) : State :=
  if c.isInk && s.composer.format.zoneStart ≤ c.start && s.zone.bellArmed then
    zoneEvent .bell (some 2) s.line.composing.leftMargin c.start c.stop (c.glyph.getD 0)
      (askSound .bell { s with zone := { s.zone with bellArmed := false } })
  else s

/-- R117: the bell is armed where the print point lies left of the zone start. -/
def rearmBell (s : State) : State :=
  if s.composer.printPoint < s.composer.format.zoneStart then
    { s with zone := { s.zone with bellArmed := true } }
  else s

/-- R117: the end of an event that may have changed the print point. -/
def rearmAfter (before : Nat) (s : State) : State :=
  if s.composer.printPoint = before then s else rearmBell s

/-- Whether an enabled watch of a kind acts on a subject; the bit number of the one that does. -/
def actingWatch (z : ZoneMonitor) (k : WatchKind) (start stop : Nat) : Option Nat :=
  if z.watch1.enabled ∧ z.watch1.kind = k ∧ z.watch1.meets start stop then some 3
  else if z.watch2.enabled ∧ z.watch2.kind = k ∧ z.watch2.meets start stop then some 4
  else none

/-- L of the line a cell of the list stands on. -/
def leftOf (s : State) (cell : Nat) : Nat :=
  if (endedCells s.line.cells).any (fun c => c.id == cell) then
    (s.line.paper.map (·.leftMargin)).getD s.line.composing.leftMargin
  else s.line.composing.leftMargin

/-- R122: the NOTE judgement of a struck cell. -/
def judgeNote (cell : Nat) (s : State) : State :=
  match findCell s.line.cells cell with
  | none => s
  | some c =>
    match actingWatch s.zone .note c.start c.stop with
    | none => s
    | some w => zoneEvent .watchNote (some w) (leftOf s cell) c.start c.stop (byte cell) s

end Sys2Proof.Machine
end

