-- ==== Sys2Proof/Machine/Wheel.lean ====
section
/-!
DEFINITION. The Wheel Unit (R43 to R53): the glyph map, the cache, the resolution of a wheel code, the
profile directory, the fetch and the store. The requests that load a profile are in WheelRequests.lean.
-/

namespace Sys2Proof.Machine

/-! ### The glyph map (R53) -/

/-- The petals of a profile that carry a code, in increasing order. -/
def petalsCarrying (petals : List PetalEntry) (code : Byte) : List Nat :=
  (List.range petals.length).filter fun i => (petals[i]?).any fun p => p.glyph == code

/-- R53: the map of a profile: each code with the two lowest-numbered petals that carry it. -/
def buildMap (petals : List PetalEntry) : List GlyphEntry :=
  (List.range 255).filterMap fun k =>
    match (petalsCarrying petals (byte (k + 1))).take 2 with
    | [] => none
    | ps => some { code := byte (k + 1), petals := ps }

/-- R53: the map rebuilt from the active profile. -/
def rebuildMap (w : WheelUnit) : WheelUnit :=
  { w with glyphMap := match activeProfile w with
      | none => []
      | some p => buildMap p.petals }

/-! ### The cache (R45) -/

/-- R45: a slot becomes the most recently used. -/
def touch (slot : Nat) (recency : List Nat) : List Nat := slot :: recency.filter fun x => x != slot

/-- The cache slot that holds a code. -/
def cacheSlotOf (w : WheelUnit) (code : Nat) : Option Nat :=
  [0, 1].find? fun i => ((w.cache[i]?).join).any fun p => p.code == code

/-- The slot that a fetch in progress is filling. -/
def fetchSlot (w : WheelUnit) : Option Nat :=
  match w.fetch with
  | some { progress := .reading _ c _, .. } => some c
  | _ => none

/-- R45: whether a slot may be chosen in cases 2 and 3. -/
def slotOpen (w : WheelUnit) (i : Nat) : Bool := w.active != some i && fetchSlot w != some i

/-- R45: the slot for a profile of a wheel code. -/
def chooseSlot (w : WheelUnit) (code : Nat) : Nat :=
  match cacheSlotOf w code with
  | some i => i
  | none =>
    match [0, 1].find? fun i => slotOpen w i && ((w.cache[i]?).join).isNone with
    | some i => i
    | none => (w.recency.reverse.find? fun i => slotOpen w i).getD 0

/-- R45: a profile placed in the cache. -/
def placeProfile (p : Profile) (w : WheelUnit) : WheelUnit :=
  let slot := chooseSlot w p.code
  let w' := { w with cache := w.cache.set slot (some p), recency := touch slot w.recency }
  if w.active = some slot then rebuildMap w' else w'

/-- R45, R53: the profile of a slot becomes active; the resolution is settled. -/
def activate (slot : Nat) (w : WheelUnit) : WheelUnit :=
  rebuildMap { w with active := some slot, recency := touch slot w.recency, resolution := .settled }

/-- R43, R53: the active profile becomes none and the glyph map empty. -/
def dropActive (w : WheelUnit) : WheelUnit := { w with active := none, glyphMap := [] }

def setWheel (w : WheelUnit) (s : State) : State := { s with wheel := w }

/-- R44, R46: WHEEL (ACTIVE); the sources are 0 CACHE, 1 MEMORY and 2 LOAD. -/
def raiseActive (source : Nat) (s : State) : State :=
  match activeProfile s.wheel with
  | none => s
  | some p =>
    raise .wheel 0
      [byte p.pitch.code, byte (boolCode (p.pitch != s.composer.format.pitch)), byte source] s

/-! ### Resolution (R43, R46, R48) -/

/-- R46 step 3: resolution passes to records. -/
def awaitRecords (code : Nat) (s : State) : State :=
  raise .wheel 1 [byte code] (setWheel { s.wheel with resolution := .unresolved } s)

/-- R48 steps 2 to 4: the directory is searched, a slot is emptied, and the first read is asked for. -/
def searchFetch (s : State) : State :=
  match s.wheel.fetch with
  | some { code := c, progress := .waitingDirectory } =>
    if s.wheel.directoryState = .loading then s
    else
      match s.wheel.directory.findIdx? fun e => e == some c with
      | none => awaitRecords c (setWheel { s.wheel with fetch := none } s)
      | some d =>
        let slot := chooseSlot s.wheel c
        askMemory .fetch (.read (profileSlotAddress d))
          (setWheel
            { s.wheel with
              cache := s.wheel.cache.set slot none
              fetch := some { code := c, progress := .reading d slot [] } } s)
  | _ => s

/-- R48: a fetch is abandoned. -/
def abandonFetch (s : State) : State :=
  match s.wheel.fetch with
  | none => s
  | some f =>
    let cache := match f.progress with
      | .waitingDirectory => s.wheel.cache
      | .reading _ slot _ => s.wheel.cache.set slot none
    withdrawUser .fetch (setWheel { s.wheel with fetch := none, cache := cache } s)

/-- R46: a wheel code is resolved. -/
def resolveWheel (code : Nat) (s : State) : State :=
  match cacheSlotOf s.wheel code with
  | some slot => raiseActive 0 (setWheel (activate slot s.wheel) s)
  | none =>
    if s.memory.state = .absent then awaitRecords code s
    else
      searchFetch (setWheel
        { s.wheel with
          resolution := .fetching
          fetch := some { code := code, progress := .waitingDirectory } } s)

/-- R43: a wheel code is handed to the Wheel Unit. -/
def wheelRead (code : Nat) (s : State) : State :=
  let before := s.wheel
  let s := setWheel { s.wheel with mounted := code } s
  if code = 0 then
    let s := abandonFetch s
    setWheel { dropActive s.wheel with resolution := .settled } s
  else if (activeProfile before).any (fun p => p.code == code) then s
  else if before.mounted = code ∧ before.resolution ≠ .settled then s
  else
    let s := abandonFetch s
    resolveWheel code (setWheel (dropActive s.wheel) s)

/-! ### Reads of the directory and of a profile (R47, R48) -/

/-- R47: a directory entry read. -/
def directoryEntry (b : Byte) : Option Nat :=
  if 1 ≤ b.toNat ∧ b.toNat ≤ 63 then some b.toNat else none

/-- R47: the first bytes of a slot have been read. -/
def directoryReadEnd (data : List Byte) (s : State) : State :=
  let k := s.wheel.directoryRead
  let w := { s.wheel with
    directory := s.wheel.directory.set k (directoryEntry (data.getD 0 0)), directoryRead := k + 1 }
  if 24 ≤ k + 1 then searchFetch (setWheel { w with directoryState := .loaded } s)
  else askMemory .directory (.read (profileSlotAddress (k + 1))) (setWheel w s)

/-- R48 steps 4 and 5: four bytes of a profile have been read. The slot number that BAD-PROFILE carries is that of
the serial memory's profile slot, `d` (DESIGN CHOICE, log entry 9: the rule's "the slot number" may mean the
cache slot too). -/
def fetchReadEnd (data : List Byte) (s : State) : State :=
  match s.wheel.fetch with
  | some { code := c, progress := .reading d slot bytes } =>
    let bytes := bytes ++ data
    if bytes.length < 320 then
      askMemory .fetch (.read (profileSlotAddress d + bytes.length))
        (setWheel { s.wheel with fetch := some { code := c, progress := .reading d slot bytes } } s)
    else
      let w := { s.wheel with fetch := none }
      match (Profile.ofBytes bytes).filter fun p => p.code == c with
      | some p =>
        raiseActive 1 (setWheel (activate slot { w with cache := w.cache.set slot (some p) }) s)
      | none =>
        awaitRecords c (raise .wheel 2 [byte c, byte d]
          (setWheel { w with cache := w.cache.set slot none } s))
  | _ => s

/-! ### The store (R52) -/

/-- R52: write `k` of the 81: the header with code 0, the rest of the image in address order, the
header. -/
def storeAccess (slot k : Nat) (g : Staging) : Access :=
  if k = 0 then .write (profileSlotAddress slot) (g.headerBytes 0)
  else if k < 80 then .write (profileSlotAddress slot + 4 * k) ((g.image.drop (4 * k)).take 4)
  else .write (profileSlotAddress slot) (g.headerBytes g.code)

/-- R52: the slot of a store: the one that holds the code, or the lowest free one. -/
def storeSlot (w : WheelUnit) (code : Nat) : Option Nat :=
  match w.directory.findIdx? fun e => e == some code with
  | some k => some k
  | none => w.directory.findIdx? fun e => e.isNone

/-- R52: a write of the store has ended. -/
def storeWriteEnd (s : State) : State :=
  match s.wheel.store with
  | none => s
  | some st =>
    let k := st.done + 1
    let w := { s.wheel with store := some { st with done := k } }
    let w := if st.done = 0 then freeDirectoryEntry st.slot w else w
    if 81 ≤ k then
      raise .memory 0 [byte MemoryOperation.profileStore.code]
        (endStore (setWheel { w with directory := w.directory.set st.slot (some w.staging.code) } s))
    else askMemory .store (storeAccess st.slot k w.staging) (setWheel w s)

end Sys2Proof.Machine
end

