-- ==== Sys2Proof/Machine/Lookup.lean ====
section
/-!
DEFINITION. The Spelling Unit's exchanges with the serial memory: the lookup (R130 to R133), the user-word
operations (R137 to R139), and the reads of STARTING (R140).
-/

namespace Sys2Proof.Machine

def setSpelling (x : SpellingUnit) (s : State) : State := { s with spelling := x }

/-- R157: whether a read of four bytes at an address stays within the memory. -/
def readFits (s : State) (address : Nat) : Bool := address + 4 ≤ endOfMemory s.memory.sizeCode

/-- R132: the lowest user-word slot from `k` on whose index entry holds a hash. -/
def slotWithHash (index : List (Option Nat)) (hash k : Nat) : Option Nat :=
  ((List.range index.length).drop k).find? fun i => (index[i]?).join == some hash

/-! ### The lookup (R130 to R133) -/

/-- R133: a lookup's result is applied, when its word is live with the generation it had. -/
def applyResult (good : Bool) (s : State) : State :=
  match s.spelling.lookup with
  | none => s
  | some l =>
    let s := setSpelling { s.spelling with lookup := none } s
    match findWord s.spelling.words l.word with
    | none => s
    | some w =>
      if w.generation ≠ l.generation then s
      else
        let s := modifyWord w.id (fun w => { w with state := if good then .good else .unknown }) s
        let s :=
          if good ∨ w.accepted then s
          else raiseSpell 0 [byte w.id, byte w.first, byte w.count] (askSound .doubleBeep s)
        releaseAdvance s

/-- R132: the user-word search goes on at slot `k`. -/
def searchUserWords (k : Nat) (s : State) : State :=
  match s.spelling.lookup with
  | none => s
  | some l =>
    if 15 < l.letters.length then applyResult false s
    else
      match slotWithHash s.spelling.userIndex l.hash k with
      | none => applyResult false s
      | some i =>
        askMemory .lookup (.read (userSlotAddress i))
          (setSpelling { s.spelling with lookup := some { l with progress := .slot i [] } } s)

/-- A dictionary read of a lookup: asked for, or not made where it would run past the end of memory
(R157), which ends the search of the dictionary. -/
def askDictionary (l : Lookup) (offset : Nat) (s : State) : State :=
  let s := setSpelling { s.spelling with lookup := some l } s
  if readFits s (dictionaryBase + offset) then askMemory .lookup (.read (dictionaryBase + offset)) s
  else searchUserWords 0 s

/-- R131: where the search of a bucket stands. -/
inductive Scan where
  | found | notFound | more
  deriving DecidableEq, Repr

/-- R131 steps 2 and 3: the entries of a bucket, compared in their order; `room` is what is left of the
extent, at most 256 bytes. -/
def scanBucket (letters : List Nat) : Nat → Nat → List Byte → Scan
  | 0, _, _ => .notFound
  | fuel + 1, room, bytes =>
    if room = 0 then .notFound
    else
      match bytes with
      | [] => .more
      | n :: rest =>
        let len := n.toNat
        if len = 0 ∨ 24 < len ∨ room < 1 + len then .notFound
        else if rest.length < len then .more
        else if (rest.take len).map BitVec.toNat = letters then .found
        else scanBucket letters fuel (room - 1 - len) (rest.drop len)

/-- R131: the bucket that a word's hash selects. -/
def bucketOf (status : DictStatus) (hash : Nat) : Nat :=
  match status with
  | .valid b => hash % b
  | _ => 0

/-- R131: the offset of bucket table entry `b`. -/
def entryOffset (b : Nat) : Nat := 4 + 3 * b

/-- R131 step 1: both entries have been read. -/
def bucketKnown (l : Lookup) (entries : List Byte) (s : State) : State :=
  let at_ (i : Nat) : Byte := entries.getD i 0
  let start := num24 (at_ 0) (at_ 1) (at_ 2)
  let stop := min (num24 (at_ 3) (at_ 4) (at_ 5)) (endOfMemory s.memory.sizeCode - dictionaryBase)
  if stop ≤ start then searchUserWords 0 s
  else askDictionary { l with progress := .scan start (stop - start) [] } start s

/-- R131, R132: a read of the lookup has ended. -/
def lookupReadEnd (data : List Byte) (s : State) : State :=
  match s.spelling.lookup with
  | none => s
  | some l =>
    match l.progress with
    | .entryLow =>
      askDictionary { l with progress := .entryHigh data }
        (entryOffset (bucketOf s.spelling.status l.hash) + 4) s
    | .entryHigh low => bucketKnown l (low ++ data) s
    | .scan start extent bytes =>
      let bytes := bytes ++ data
      match scanBucket l.letters 257 (min extent 256) bytes with
      | .found => applyResult true s
      | .notFound => searchUserWords 0 s
      | .more => askDictionary { l with progress := .scan start extent bytes } (start + bytes.length) s
    | .slot k bytes =>
      let bytes := bytes ++ data
      if bytes.length < userSlotBytes bytes then
        askMemory .lookup (.read (userSlotAddress k + bytes.length))
          (setSpelling { s.spelling with lookup := some { l with progress := .slot k bytes } } s)
      else if userSlotLetters bytes = some l.letters then applyResult true s
      else searchUserWords (k + 1) s

/-- R130: one head word leaves the check queue and its lookup begins. -/
def beginLookupOnce (s : State) : State :=
  match s.spelling.lookup, s.spelling.unit, s.spelling.checkQueue with
  | none, .available, id :: rest =>
    match findWord s.spelling.words id with
    | none => setSpelling { s.spelling with checkQueue := rest } s
    | some w =>
      let s := modifyWord id (fun w => { w with state := .checking })
        (setSpelling { s.spelling with checkQueue := rest } s)
      askDictionary
        { word := id, generation := w.generation, letters := wordLetters s.line.cells id,
          hash := w.hash, progress := .entryLow }
        (entryOffset (bucketOf s.spelling.status w.hash)) s
  | _, _, _ => s

def beginLookups : Nat → State → State
  | 0, s => s
  | n + 1, s => beginLookups n (beginLookupOnce s)

/-- R130: judged at every event that can make its three conditions hold. A lookup whose reads all lie
past the end of memory ends at once, so the next word is judged too. -/
def beginLookup (s : State) : State := beginLookups (s.spelling.checkQueue.length) s

/-! ### User words (R138, R139) -/

def UserWordKind.operation : UserWordKind → MemoryOperation
  | .add => .addWord
  | .remove => .removeWord

/-- R138, R139: the operation ends with a MEMORY report. -/
def endUserOp (reason : Nat) (s : State) : State :=
  match s.spelling.userOp with
  | none => s
  | some o =>
    raise .memory reason [byte o.kind.operation.code] (setSpelling { s.spelling with userOp := none } s)

/-- R138: write `k` of the four of an ADD-WORD: bytes 4 to 15 first, bytes 0 to 3 last. -/
def addWordAccess (slot k : Nat) (letters : List Nat) : Access :=
  let from_ := if k < 3 then 4 * (k + 1) else 0
  .write (userSlotAddress slot + from_) (((userSlotImage letters).drop from_).take 4)

/-- The first write of a user-word operation is asked for. -/
def beginUserWrite (o : UserWordOp) (slot : Nat) (s : State) : State :=
  let access := match o.kind with
    | .add => addWordAccess slot 0 o.letters
    | .remove => .write (userSlotAddress slot) [0, 0, 0, 0]
  askMemory .userWord access
    (setSpelling { s.spelling with userOp := some { o with progress := .write slot 0 } } s)

/-- R138, R139: the comparison goes on at slot `k`; after the last slot, the word is not there. -/
def compareUserWords (k : Nat) (s : State) : State :=
  match s.spelling.userOp with
  | none => s
  | some o =>
    match slotWithHash s.spelling.userIndex o.hash k with
    | some i =>
      askMemory .userWord (.read (userSlotAddress i))
        (setSpelling { s.spelling with userOp := some { o with progress := .compare i [] } } s)
    | none =>
      match o.kind with
      | .remove => endUserOp 5 s
      | .add =>
        match s.spelling.userIndex.findIdx? fun e => e.isNone with
        | none => endUserOp 4 s
        | some free => beginUserWrite o free s

/-- R138, R139: a read of the operation has ended. -/
def userReadEnd (data : List Byte) (s : State) : State :=
  match s.spelling.userOp with
  | some { kind := kind, letters := letters, hash := hash, progress := .compare k bytes } =>
    let bytes := bytes ++ data
    let o : UserWordOp := { kind := kind, letters := letters, hash := hash, progress := .compare k bytes }
    if bytes.length < userSlotBytes bytes then
      askMemory .userWord (.read (userSlotAddress k + bytes.length))
        (setSpelling { s.spelling with userOp := some o } s)
    else if userSlotLetters bytes = some letters then
      match kind with
      | .add => endUserOp 3 s
      | .remove => beginUserWrite o k s
    else compareUserWords (k + 1) s
  | _ => s

/-- R138, R139: a write of the operation has ended. -/
def userWriteEnd (s : State) : State :=
  match s.spelling.userOp with
  | some { kind := .add, letters := letters, hash := hash, progress := .write slot done } =>
    if done + 1 < 4 then
      askMemory .userWord (addWordAccess slot (done + 1) letters)
        (setSpelling { s.spelling with
          userOp := some { kind := .add, letters := letters, hash := hash,
                           progress := .write slot (done + 1) } } s)
    else
      endUserOp 0 (setSpelling { s.spelling with
        userIndex := s.spelling.userIndex.set slot (some hash)
        ignoreList := s.spelling.ignoreList.filter fun e => e != { letters := letters, hash := hash } } s)
  | some { kind := .remove, progress := .write slot _, .. } =>
    endUserOp 0 (setSpelling { s.spelling with userIndex := s.spelling.userIndex.set slot none } s)
  | _ => s

/-- R138, R139: an operation begins. -/
def beginUserOp (kind : UserWordKind) (letters : List Nat) (s : State) : State :=
  compareUserWords 0 (setSpelling { s.spelling with
    userOp := some { kind := kind, letters := letters, hash := wordHash letters,
                     progress := .compare 0 [] } } s)

/-- R138, R139: the checks that ADD-WORD and REMOVE-WORD share, in their order; the operand is the
request's codes. -/
def refuseUserWord (codes : List Byte) (s : State) : Option Status :=
  if s.spelling.userOp.isSome then some .busy
  else if s.memory.state = .absent then some .noMemory
  else if s.spelling.unit = .starting then some .notReady
  else if lettersAllowed codes = false then some .badValue
  else if codes.length < 2 ∨ 15 < codes.length then some .tooLong
  else if 3 ≤ s.memory.protect then some .isProtected
  else none

/-- R138: what ADD-WORD answers, and the operation begun when it is ACCEPTED. -/
def addWord (codes : List Byte) (s : State) : State × Status :=
  match refuseUserWord codes s with
  | some r => (s, r)
  | none =>
    let letters := codes.map letterValue
    if s.spelling.userIndex.contains (some (wordHash letters)) ∨ s.spelling.userIndex.contains none then
      (beginUserOp .add letters s, .accepted)
    else (s, .full)

/-- R139: what REMOVE-WORD answers, and the operation begun when it is ACCEPTED. -/
def removeWord (codes : List Byte) (s : State) : State × Status :=
  match refuseUserWord codes s with
  | some r => (s, r)
  | none =>
    let letters := codes.map letterValue
    if s.spelling.userIndex.contains (some (wordHash letters)) then
      (beginUserOp .remove letters s, .accepted)
    else (s, .notFound)

/-! ### The reads of STARTING (R140) -/

/-- R140: the status a dictionary header gives; an open download keeps its own. -/
def headerRead (data : List Byte) (s : State) : State :=
  if s.memory.downloadOpen then s else setDictStatus (dictionaryStatus data) s

/-- R140: the reading of index slot `k` begins. -/
def askIndexSlot (k : Nat) (s : State) : State :=
  askMemory .indexLoad (.read (userSlotAddress k))
    (setSpelling { s.spelling with startup := .index k [] } s)

/-- R140: the dictionary header has been read during STARTING. -/
def headerReadEnd (data : List Byte) (s : State) : State := askIndexSlot 0 (headerRead data s)

/-- R140: the index loading ends. -/
def indexLoaded (s : State) : State :=
  let s := setSpelling { s.spelling with startup := .none } s
  match s.spelling.status with
  | .valid _ => becomeAvailable s
  | .download => releaseAdvance (becomeUnavailable 2 s)
  | .absent => releaseAdvance (becomeUnavailable 0 s)
  | _ => releaseAdvance (becomeUnavailable 1 s)

/-- R140: a read of the index loading has ended. -/
def indexReadEnd (data : List Byte) (s : State) : State :=
  match s.spelling.startup with
  | .index k bytes =>
    let bytes := bytes ++ data
    if bytes.length < userSlotBytes bytes then
      askMemory .indexLoad (.read (userSlotAddress k + bytes.length))
        (setSpelling { s.spelling with startup := .index k bytes } s)
    else
      let s := setSpelling { s.spelling with
        userIndex := s.spelling.userIndex.set k ((userSlotLetters bytes).map wordHash) } s
      if k + 1 < 256 then askIndexSlot (k + 1) s else indexLoaded s
  | _ => s

/-- R164: the header read of a DICT-CLOSE has ended. Where the unit becomes AVAILABLE, SPELL is raised before MEMORY
(DONE): no rule gives the two an order (DESIGN CHOICE, log entry 36). -/
def closeReadEnd (data : List Byte) (s : State) : State :=
  let s := { s with memory := { s.memory with dictClose := false } }
  match dictionaryStatus data with
  | .valid b =>
    let s := setDictStatus (.valid b) s
    let s := if s.spelling.unit = .starting then s else becomeAvailable s
    raise .memory 0 [byte MemoryOperation.dictClose.code] s
  | _ => raise .memory 6 [byte MemoryOperation.dictClose.code] (setDictStatus .bad s)

end Sys2Proof.Machine
end

