-- ==== Sys2Proof/Machine/Planner.lean ====
section
/-!
DEFINITION. The Order Planner (R37 to R41, R67, R68) and the placing of waiting lifts (R100): everything
that adds a group to the strike queue but the deferred lift.
-/

namespace Sys2Proof.Machine

/-! ### Underline (R37, R38) -/

/-- R37: the first cell after a place of the list that is not a SPACE. -/
def nextAfterSpaces (after : List Cell) : Option Cell := (after.dropWhile fun c => c.kind == .space).head?

/-- R37: whether a SPACE cell is underlined, from the cells before it (nearest first) and after it. -/
def spaceUnderlined (before after : List Cell) (c : Cell) : Bool :=
  c.underline && c.advance != 0 &&
    (nextAfterSpaces before).any (fun d => d.isInk && d.underline) &&
    (nextAfterSpaces after).any (fun d => d.isInk && d.underline)

/-- R37: whether a cell is underlined. -/
def isUnderlined (before after : List Cell) (c : Cell) : Bool :=
  match c.kind with
  | .glyph | .composite => c.underline
  | .space => spaceUnderlined before after c
  | .tab | .lineEnd => false

/-- R38: n, the number of UNDER strikes. -/
def underCount (advance width : Nat) : Nat := min 6 (ceilDiv advance width)

/-- R38: the offsets of the UNDER strikes from the cell's start. -/
def underOffsets (advance width : Nat) : List Nat :=
  let n := underCount advance width
  if n = 1 then [0] else (List.range n).map fun k => k * (advance - width) / (n - 1)

/-- R38: the underline width. -/
def underlineWidth (f : Format) (p : Profile) (petal : Nat) : Nat :=
  f.pitch.advance.getD (((p.petals[petal]?).map (·.width)).getD 0)

/-! ### Groups (R39 to R41) -/

/-- A group just built, and whether its underline was dropped (R38). -/
structure Built where
  orders : List Order
  dropped : Bool
  deriving DecidableEq, Repr

/-- R65: the last order of a group carries the last-of-group flag. -/
def markLast : List Order → List Order
  | [] => []
  | [o] => [{ o with last := true }]
  | o :: rest => { o with last := false } :: markLast rest

/-- R40: the class of the lower-numbered candidate. -/
def petalClass (p : Profile) (petals : List Nat) : Option Nat :=
  match petals with
  | [] => none
  | q :: _ => (p.petals[q]?).map (·.impression)

/-- R39, R40: a STRIKE order for a glyph code at a position. -/
def strikeOrder (w : WheelUnit) (p : Profile) (cell position : Nat) (kind : StrikeKind) (code : Byte) :
    Order :=
  let petals := glyphPetals w code
  { cell := cell, position := position, last := false,
    work := .strike kind (some code) petals (if kind = .accent then some 1 else petalClass p petals) }

/-- R39: the code a cell strikes and its accent, from the composite table as it stands. -/
def struckCodes (w : WheelUnit) (c : Cell) : Byte × Option Byte :=
  let code := c.glyph.getD 0
  match c.kind, compositeOf w code with
  | .composite, some e => (e.base, some e.accent)
  | _, _ => (code, none)

/-- R39: the MAIN, BOLD and ACCENT orders of a cell. -/
def inkOrders (w : WheelUnit) (p : Profile) (c : Cell) : List Order :=
  if c.isInk then
    let (code, accent) := struckCodes w c
    [strikeOrder w p c.id c.start .main code] ++
      (if c.bold then [strikeOrder w p c.id (c.start + 1) .bold code] else []) ++
      (match accent with
        | some a => [strikeOrder w p c.id c.start .accent a]
        | none => [])
  else []

/-- R38, R39: the UNDER orders of an underlined cell. -/
def underOrders (f : Format) (p : Profile) (c : Cell) (petal : Nat) : List Order :=
  (underOffsets c.advance (underlineWidth f p petal)).map fun k =>
    { cell := c.id, position := c.start + k, last := false, work := .strike .under none [petal] (some 1) }

/-- R39: the group of a GLYPH, COMPOSITE or SPACE cell; an order whose position lies beyond the carriage
end is taken out. -/
def buildGroup (f : Format) (w : WheelUnit) (p : Profile) (before after : List Cell) (c : Cell) : Built :=
  let under := isUnderlined before after c
  let unders := match under, p.underscore with
    | true, some u => underOrders f p c u
    | _, _ => []
  { orders := markLast ((inkOrders w p c ++ unders).filter fun o => o.position ≤ Config.carriageEnd)
    dropped := under && p.underscore.isNone }

/-- R41: the group of a LINE-END cell. -/
def returnGroup (l : LineMemory) (c : Cell) : List Order :=
  [{ cell := c.id, position := l.composing.leftMargin, last := true,
     work := .returnLine (((l.paper.bind (·.ended)).map (·.spacing)).getD 8) }]

/-! ### Room and adding (R65, R68) -/

/-- R68: the room in the strike queue. -/
def queueRoom (s : State) : Nat := Config.strikeQueueMax - s.strikeQueue.length

def addAtTail (orders : List Order) (s : State) : State := { s with strikeQueue := s.strikeQueue ++ orders }

/-- R100: waiting lifts are taken in list order while the next fits. -/
def takeWaiting : Nat → State → State
  | 0, s => s
  | n + 1, s =>
    match s.correction.waiting with
    | [] => s
    | g :: rest =>
      if g.orders.length ≤ queueRoom s then
        takeWaiting n (setCellState g.cell .lifting
          (addAtTail g.orders { s with correction := { s.correction with waiting := rest } }))
      else s

/-! ### The planning cursor (R67, R68) -/

/-- R67: the cells before the cursor (nearest first), the cell at it, and the cells after it. -/
def cursorFrom (before : List Cell) : List Cell → Option (List Cell × Cell × List Cell)
  | [] => none
  | c :: rest =>
    if c.state = .held ∨ c.state = .pending then some (before, c, rest) else cursorFrom (c :: before) rest

/-- R68: a group built at the cursor is added, or its cell is made STRUCK, or it does not fit. -/
def handleGroup (b : Built) (c : Cell) (s : State) : Option State :=
  if b.orders = [] then
    some (modifyCell c.id
      (fun c => { c with state := .struck, underlineDropped := c.underlineDropped || b.dropped }) s)
  else if b.orders.length ≤ queueRoom s then
    some (modifyCell c.id
      (fun c => { c with state := .ordered, underlineDropped := c.underlineDropped || b.dropped })
      (addAtTail b.orders s))
  else none

/-- R67: the planner acts on a PENDING cell at the cursor; none where it waits. -/
def planPending (before : List Cell) (c : Cell) (after : List Cell) (s : State) : Option State :=
  let build : Option State :=
    match activeProfile s.wheel with
    | none => none
    | some p => handleGroup (buildGroup s.composer.format s.wheel p before after c) c s
  match c.kind with
  | .tab => some (setCellState c.id .struck s)
  | .lineEnd => handleGroup { orders := returnGroup s.line c, dropped := false } c s
  | .space =>
    if c.underline = false ∨ c.advance = 0 then some (setCellState c.id .struck s)
    else
      match nextAfterSpaces after with
      | none => none
      | some _ =>
        if activeProfile s.wheel = none then none
        else if spaceUnderlined before after c then build
        else some (setCellState c.id .struck s)
  | .glyph | .composite => build

/-- R67, R100: the planner acts at its cursor; none where it waits. -/
def planOnce (s : State) : Option State :=
  if s.correction.waiting ≠ [] ∨ s.correction.deferred.isSome then none
  else
    match cursorFrom [] s.line.cells with
    | none => none
    | some (before, c, after) =>
      if c.state = .held ∨ hasLineEnd before then none else planPending before c after s

/-- R67: cell after cell is planned until a wait. -/
def planCells : Nat → State → State
  | 0, s => s
  | n + 1, s =>
    match planOnce s with
    | none => s
    | some s' => planCells n s'

/-- Waiting lifts first, then the planner (R71, R100). Each cell is planned at most once, so as many turns
as there are cells are enough. -/
def supplyQueue (s : State) : State :=
  let s := takeWaiting s.correction.waiting.length s
  planCells s.line.cells.length s

end Sys2Proof.Machine
end

