-- ==== Sys2Proof/Machine/Engine.lean ====
section
/-!
DEFINITION. The Print Engine (R59 to R83) with the Impression Unit's pulses and heat (R84 to R94) and the
executing of lifts (R101 to R103): states and reports, homing, faults and pauses, the group start, the
orders and their completion, and the settling of the text path at the end of an event.
-/

namespace Sys2Proof.Machine

def setEngine (e : Engine) (s : State) : State := { s with engine := e }

/-! ### Reports and states (R59, R60, R75) -/

/-- R75: the fault detail in a report; 0xFF 0xFF is "none" of the target (log entry 9). -/
def FaultDetail.bytes (d : FaultDetail) : List Byte :=
  [optByte d.cell] ++ carriageBytes d.carriage ++
    (match d.target with
      | none => [0xFF, 0xFF]
      | some t => be16 t)

/-- R60: an ENGINE event about the state as it now stands. -/
def engineReport (s : State) : State :=
  raise .engine s.engine.state.code
    ([byte s.engine.state.reasonCode] ++
      (match s.engine.state.isFaulted, s.engine.faultDetail with
        | true, some d => d.bytes
        | _, _ => [])) s

/-- R60: the engine passes to a state, with its report. -/
def enterState (x : EngineState) (s : State) : State :=
  engineReport (setEngine { s.engine with state := x } s)

/-! ### The impression (R85, R86, R92, R94) -/

/-- R85: the base of an impression class. -/
def impressionBase : Nat → Int
  | 1 => 28 | 2 => 38 | 3 => 48 | 4 => 58 | _ => 70

/-- R85: the numerator of a band's factor. -/
def Band.factor : Band → Int
  | .critical => 9 | .low => 9 | .nominal => 8 | .high => 7

/-- R85: the drive pulse. -/
def drivePulse (impression : Nat) (lift : Bool) (setting : Int) (band : Band) : Nat :=
  let value := impressionBase impression + 6 * setting + if lift then 10 else 0
  (clampInt 20 100 ((value * band.factor + 4) / 8)).toNat

/-- R86: the brake pulse of a latched speed. -/
def brakeBase : Nat → Nat
  | 1 => 40 | 2 => 36 | 3 => 32 | _ => 30

/-- R86: the brake pulse, shortened to the strike window. -/
def brakePulse (speed drive : Nat) : Nat := min (brakeBase speed) (120 - drive)

def addHeat (n : Nat) (s : State) : State :=
  { s with impression := { s.impression with heat := s.impression.heat + n } }

/-- R94: the cooling judgement; whether it calls for a wait, and the latch after it. -/
def coolingCalls (x : Impression) : Bool := x.coolingLatch || Config.coolingAbove < x.heat

def latchCooling (s : State) : State :=
  { s with impression := { s.impression with coolingLatch := coolingCalls s.impression } }

/-! ### Faults, pauses and homing (R62, R75 to R78) -/

/-- R87: the drive given to a firing that a fault or the cover cuts in DRIVE. -/
def cutDrive (o : OrderProgress) (now : Time) : Nat := min o.drivePulse (now - o.driveStart)

/-- R87: what a fault or an opened cover adds to the heat; a BRAKE cut by the cover adds D at the order's
completion instead. -/
def heatOfCut (s : State) (brakeToo : Bool) : Nat :=
  match s.engine.order with
  | some o =>
    match o.phase with
    | .drive => cutDrive o s.now
    | .brake => if brakeToo then o.drivePulse else 0
    | _ => 0
  | none => 0

/-- The engine with its work ended: no order phase, homing, group wait or feed motion. -/
def Engine.halted (e : Engine) : Engine :=
  { e with homing := none, homingLimit := none, order := none, groupWait := none, feed := none }

/-- R71, R74: where the carriage is being moved to for the order in progress; none where its carriage move has ended
or was not made. -/
def orderTarget (s : State) : Option Nat :=
  if s.engine.order.any fun o => o.carriage.isSome then s.strikeQueue.head?.map (·.position) else none

/-- R75: the target of the carriage move in progress: 0 in the homing return, the order's position while its carriage
move is under way, and none otherwise (log entry 19). -/
def moveTarget (s : State) : Option Nat :=
  if s.engine.homing = some .carriageReturn then some 0 else orderTarget s

/-- R75: the fault detail as a fault records it. -/
def faultDetailNow (s : State) : FaultDetail :=
  { cell := if s.engine.order.isSome then s.strikeQueue.head?.map (·.cell) else none
    carriage := s.engine.carriage
    target := moveTarget s }

/-- R75: a fault is taken; it is ignored while the engine is FAULTED. -/
def takeFault (r : FaultReason) (s : State) : State :=
  if s.engine.state.isFaulted then s
  else
    let detail := faultDetailNow s
    enterState (.faulted r)
      (setEngine { s.engine.halted with faultDetail := some detail } (addHeat (heatOfCut s true) s))

/-- R62: homing begins. A feed motion in progress goes on: R81 names what ends it. -/
def beginHoming (s : State) : State :=
  enterState .homing
    (setEngine
      { s.engine.halted with
        feed := s.engine.feed, homing := some .carriageSearch, homingTravel := 0,
        homingLimit := some (s.now + Config.searchLimit), carriage := none, wheelPosition := none,
        faultDetail := none } s)

/-! ### The turn of the wheel (R42) -/

/-- R42: d, the forward turn from petal `p` to petal `q`. -/
def forwardTurn (p q : Nat) : Nat := (q + 96 - p) % 96

/-- R42: the travel of a turn. -/
def travel (p q : Nat) : Nat := min (forwardTurn p q) (96 - forwardTurn p q)

/-- R42: the direction of a turn. -/
inductive Turn where
  | still
  | forward (petals : Nat)
  | backward (petals : Nat)
  deriving DecidableEq, Repr

/-- R42: forward for d up to 48, backward beyond. -/
def turnOf (p q : Nat) : Turn :=
  let d := forwardTurn p q
  if d = 0 then .still else if d ≤ 48 then .forward d else .backward (96 - d)

/-- R42: the turn that the order in progress has the wheel make, from the petal at which it stood at the order's start
to the petal to be struck; still where the turn has ended or was not made. -/
def orderTurn (o : OrderProgress) (e : Engine) : Turn :=
  match o.wheel, o.petal with
  | some _, some q => turnOf (e.wheelPosition.getD 0) q
  | _, _ => .still

/-! ### What the motors and the hammer are given (R59) -/

/-- R42, R59: what the carriage and the wheel are given: nothing, to stand still, the motion of a homing phase, or, in an
order's MOVING, each motion of the order that is under way: the position the carriage moves to, and the turn of the
wheel, forward or backward by a number of petals. -/
inductive Motors where
  | off
  | held
  | homing (phase : HomingPhase)
  | moving (carriage : Option Nat) (wheel : Turn)
  deriving DecidableEq, Repr

/-- R59, R71: what the hammer is given. -/
inductive Hammer where
  | inhibited | atRest | driven | braked
  deriving DecidableEq, Repr

/-- R59: the outputs of the engine: carriage and wheel, the units that the platen is being moved by, and the hammer. -/
structure MechanismOutput where
  motors : Motors
  platen : Option Int
  hammer : Hammer
  deriving DecidableEq, Repr

/-- The outputs with carriage and wheel held at rest, where a FEED motion may be under way (R81). -/
def outputAtRest (s : State) : MechanismOutput := { motors := .held, platen := s.engine.feed, hammer := .atRest }

/-- R74: the units of the platen advance of the order in progress, else those of a FEED motion. -/
def orderPlaten (o : OrderProgress) (s : State) : Option Int :=
  match s.strikeQueue with
  | { work := .returnLine units, .. } :: _ => if o.platen then some (units : Int) else s.engine.feed
  | _ => s.engine.feed

/-- R42, R71, R74: the outputs that the order in progress needs. That carriage and wheel are held in DRIVE and BRAKE too
is an inference (log entry 35). -/
def orderOutput (o : OrderProgress) (s : State) : MechanismOutput :=
  match o.phase with
  | .moving =>
    { motors := .moving (orderTarget s) (orderTurn o s.engine), platen := orderPlaten o s, hammer := .atRest }
  | .settling => outputAtRest s
  | .drive => { outputAtRest s with hammer := .driven }
  | .brake => { outputAtRest s with hammer := .braked }

/-- R59's column "Motors and hammer", with what R71, R74 and R81 say of the motions. In UNHOMED the hammer is inhibited
by the reset (R83). RUNNING without an order in progress gives what READY gives (log entry 35). -/
def mechanismOutput (s : State) : MechanismOutput :=
  match s.engine.state with
  | .unhomed | .paused .cover | .faulted _ => { motors := .off, platen := none, hammer := .inhibited }
  | .homing =>
    match s.engine.homing with
    | some x => { outputAtRest s with motors := .homing x }
    | none => outputAtRest s
  | .identifying | .ready | .paused .paper | .paused .supply => outputAtRest s
  | .running =>
    match s.engine.order with
    | some o => orderOutput o s
    | none => outputAtRest s

/-- The engine passes from a pause to READY or RUNNING as the strike queue gives (R79, R80). -/
def resumeEngine (s : State) : State :=
  enterState (if s.strikeQueue = [] then .ready else .running)
    (setEngine { s.engine with groupWait := none } s)

/-! ### The strike queue by groups (R65, R66) -/

/-- The orders behind the group at the head. -/
def dropGroup : List Order → List Order
  | [] => []
  | o :: rest => if o.last then rest else dropGroup rest

/-- The group at the head. -/
def headGroup : List Order → List Order
  | [] => []
  | o :: rest => if o.last then [o] else o :: headGroup rest

/-- R66: whether a cell's group is the group in progress. A group that has been interrupted and waits in COOLING
or CYCLE at its resumption counts as one: it stays under STOP and cancellation (DESIGN CHOICE, log entry 23). -/
def groupInProgress (s : State) (cell : Nat) : Bool :=
  s.engine.groupStarted && s.strikeQueue.head?.any (fun o => o.cell == cell)

/-- R66, R69: a cell's group, which has not started, is removed; where it waited at the head, the start is
judged for the new head. -/
def removeGroup (cell : Nat) (s : State) : State :=
  let atHead := s.strikeQueue.head?.any fun o => o.cell == cell
  let s := { s with strikeQueue := s.strikeQueue.filter fun o => o.cell != cell }
  if atHead then setEngine { s.engine with groupWait := none } s else s

/-- R82: STOP at the strike queue. A group once started stays, also one that was interrupted and waits in COOLING
or CYCLE at its resumption (DESIGN CHOICE, log entry 23). -/
def stopQueue (s : State) : State :=
  setEngine { s.engine with groupWait := none }
    { s with strikeQueue := if s.engine.groupStarted then headGroup s.strikeQueue else [] }

/-! ### Lifts (R99 to R103) -/

/-- R99: the LIFT group of a cell: its records from the newest to the oldest. -/
def buildLift (c : Cell) : LiftGroup :=
  { cell := c.id
    orders := markLast (c.strikes.reverse.map fun r =>
      { cell := c.id, position := r.position, last := false,
        work := .lift r.kind r.petal r.wheel r.impression }) }

/-- R99: the checks of a lift, the first that fails first. -/
inductive LiftCheck where
  | passed
  | wheelChanged (wheel : Nat)
  | tapeOut
  deriving DecidableEq, Repr

/-- R99: every record's wheel is judged, then the tape. Where several records name other wheels than the mounted
one, the wheel code reported is that of the newest of them (DESIGN CHOICE, log entry 31: the rule says only "the
record's wheel code"). -/
def checkLift (s : State) (strikes : List StrikeRecord) : LiftCheck :=
  match strikes.reverse.find? fun r => r.wheel != s.wheel.mounted with
  | some r => .wheelChanged r.wheel
  | none => if s.sensors.isOpen .tape then .tapeOut else .passed

/-- R109: a lift refused or abandoned: its LIFT event and the ERROR one-shot. -/
def refuseLift (check : LiftCheck) (cell held : Nat) (s : State) : State :=
  match check with
  | .passed => s
  | .wheelChanged wheel =>
    askSound .error (raise .lift 1 [byte cell, byte wheel, byte s.wheel.mounted, byte held] s)
  | .tapeOut => askSound .error (raise .lift 2 [byte cell, byte held] s)

/-- R101: the deferred lift is built when the group in progress has completed. -/
def buildDeferred (cell : Nat) (s : State) : State :=
  if s.correction.deferred = some cell then
    let s := { s with correction := { s.correction with deferred := none } }
    match findCell s.line.cells cell with
    | none => s
    | some c =>
      if c.strikes = [] then removeCells false (fun d => d.id == cell) s
      else
        match checkLift s c.strikes with
        | .passed =>
          let g := buildLift c
          if g.orders.length ≤ queueRoom s then
            setCellState cell .lifting { s with strikeQueue := g.orders ++ s.strikeQueue }
          else { s with correction := { s.correction with waiting := g :: s.correction.waiting } }
        | failed => refuseLift failed cell c.strikes.length s
  else s

/-- R71, R56, R122, R101: the last order of a group of STRIKE orders has completed or was skipped. -/
def finishStrikeGroup (cell : Nat) (s : State) : State :=
  buildDeferred cell
    (judgeNote cell (setCellState cell .struck
      (setEngine { s.engine with groupStarted := false } s)))

/-- R102: a lift is abandoned at the start of the order at the head. -/
def abandonLift (check : LiftCheck) (cell : Nat) (s : State) : State :=
  let held := ((findCell s.line.cells cell).map fun c => c.strikes.length).getD 0
  refuseLift check cell held
    (setCellState cell .struck
      (setEngine { s.engine with groupStarted := false, order := none }
        { s with strikeQueue := dropGroup s.strikeQueue }))

/-! ### The completion of an order (R9, R71, R74, R103) -/

def appendStrike (cell : Nat) (r : StrikeRecord) (s : State) : State :=
  modifyCell cell (fun c => { c with strikes := c.strikes ++ [r] }) s

def removeLastStrike (cell : Nat) (s : State) : State :=
  modifyCell cell (fun c => { c with strikes := c.strikes.dropLast }) s

/-- R9, R74: a RETURN order completes: the LINE-END cell and every cell before it leave the list. -/
def completeReturn (s : State) : State :=
  let gone := (endedCells s.line.cells).map (·.id)
  let s := setEngine { s.engine with groupStarted := false } s
  let s := removeCells false (fun c => gone.contains c.id) s
  raise .line 0 [] { s with line := { s.line with paper := none } }

/-- R103: the last LIFT order of a group has completed. -/
def finishLift (cell : Nat) (s : State) : State :=
  let code := ((findCell s.line.cells cell).bind (·.glyph)).map (·.toNat)
  raise .lift 0 [byte cell, optByte code]
    (removeCells false (fun c => c.id == cell)
      (setEngine { s.engine with groupStarted := false } s))

/-- The order at the head completes (R71, R73, R74); the next one is not started here. -/
def completeOrder (s : State) : State :=
  match s.engine.order, s.strikeQueue with
  | some p, o :: rest =>
    let s := setEngine { s.engine with order := none } { s with strikeQueue := rest }
    match o.work with
    | .strike kind _ _ _ =>
      let s := setEngine { s.engine with wheelPosition := p.petal } (addHeat p.drivePulse s)
      let s := appendStrike o.cell
        { position := o.position, petal := p.petal.getD 0, wheel := s.wheel.mounted, kind := kind,
          impression := p.impression } s
      if o.last then finishStrikeGroup o.cell s else s
    | .lift _ _ _ _ =>
      let s := setEngine { s.engine with wheelPosition := p.petal } (addHeat p.drivePulse s)
      let s := removeLastStrike o.cell s
      if o.last then finishLift o.cell s else s
    | .returnLine _ => completeReturn s
  | _, _ => s

/-! ### The start of an order (R42, R56, R71, R73, R74) -/

/-- R42: the candidate of smaller travel, the lower-numbered one where they are equal. -/
def choosePetal (p : Nat) : List Nat → Option Nat
  | [] => none
  | [q] => some q
  | q :: r :: _ =>
    if travel p q < travel p r then some q
    else if travel p r < travel p q then some r
    else some (min q r)

/-- R56: the candidates of a STRIKE order, taken anew. -/
def candidatesNow (w : WheelUnit) (kind : StrikeKind) (code : Option Byte) : List Nat :=
  match kind with
  | .under => ((activeProfile w).bind (·.underscore)).toList
  | _ => (code.map (glyphPetals w)).getD []

/-- R40, R56: the class of a strike with the petal chosen. -/
def classNow (w : WheelUnit) (kind : StrikeKind) (petal : Nat) : Nat :=
  match kind with
  | .main | .bold =>
    ((activeProfile w).bind fun p => (p.petals[petal]?).map (·.impression)).getD 1
  | .accent | .under => 1

/-- The distance of a carriage move. -/
def moveDistance (s : State) (position : Nat) : Nat :=
  (s.engine.carriage.getD 0 - (position : Int)).natAbs

/-- R72: the limit of a carriage move of `t` increments: 300 ms and a quarter of a millisecond, whole, for
each increment. -/
def carriageLimit (t : Nat) : Time := 3000 + t / 4 * 10

/-- R72: when the limit of a carriage move falls; none for a move of 0 increments, which is not made. -/
def moveLimit (s : State) (position : Nat) : Option Time :=
  if moveDistance s position = 0 then none else some (s.now + carriageLimit (moveDistance s position))

/-- R42, R72: when the limit of a wheel turn falls; none for a turn of 0 petals, which is not made. -/
def turnLimit (s : State) (petal : Nat) : Option Time :=
  if travel (s.engine.wheelPosition.getD 0) petal = 0 then none else some (s.now + Config.wheelLimit)

/-- R71: MOVING ends where no motion is under way: the RETURN order completes, any other settles. -/
def endMoving (s : State) : State :=
  match s.engine.order with
  | none => s
  | some o =>
    if o.phase = .moving ∧ o.carriage = none ∧ o.wheel = none ∧ o.platen = false then
      if o.petal = none then completeOrder s
      else
        setEngine { s.engine with
          order := some { o with phase := .settling, phaseEnd := some (s.now + Config.settlingTime) } } s
    else s

/-- R71, R73: the order at the head begins MOVING towards its position and its petal. -/
def beginStrike (position petal impression : Nat) (s : State) : State :=
  endMoving (setEngine { s.engine with
    groupStarted := true
    order := some
      { phase := .moving, petal := some petal, impression := impression, carriage := moveLimit s position,
        wheel := turnLimit s petal, platen := false, phaseEnd := none, drivePulse := 0, brakePulse := 0,
        driveStart := s.now } } s)

/-- R74: a RETURN order begins: carriage and platen move at once. -/
def beginReturn (position : Nat) (s : State) : State :=
  setEngine { s.engine with
    groupStarted := true
    order := some
      { phase := .moving, petal := none, impression := 0, carriage := moveLimit s position, wheel := none,
        platen := true, phaseEnd := none, drivePulse := 0, brakePulse := 0, driveStart := s.now } } s

/-- R56: the order at the head is skipped: its flag and its WHEEL event. -/
def skipOrder (o : Order) (kind : StrikeKind) (code : Option Byte) (rest : List Order) (s : State) :
    State :=
  let flag (c : Cell) : Cell :=
    if kind = .under then { c with underlineDropped := true } else { c with unprintable := true }
  let s := setEngine { s.engine with groupStarted := true } { s with strikeQueue := rest }
  let s := raise .wheel 3 [byte o.cell, optByte (code.map (·.toNat)), byte kind.code]
    (modifyCell o.cell flag s)
  if o.last then finishStrikeGroup o.cell s else s

/-- R71, R73, R74: the order at the head starts; after a skipped order that is not the last of its group,
the next one starts. R102 gives the two checks of a LIFT order no order: where both fail, the lift is abandoned as
WHEEL-CHANGED, in the order of R99 (DESIGN CHOICE, log entry 31). -/
def startOrders : Nat → State → State
  | 0, s => s
  | n + 1, s =>
    match s.strikeQueue with
    | [] => s
    | o :: rest =>
      match o.work with
      | .strike kind code _ _ =>
        match choosePetal (s.engine.wheelPosition.getD 0) (candidatesNow s.wheel kind code) with
        | none =>
          let s := skipOrder o kind code rest s
          if o.last then s else startOrders n s
        | some q => beginStrike o.position q (classNow s.wheel kind q) s
      | .lift _ petal wheel impression =>
        if wheel ≠ s.wheel.mounted then abandonLift (.wheelChanged wheel) o.cell s
        else if s.sensors.isOpen .tape then abandonLift .tapeOut o.cell s
        else beginStrike o.position petal impression s
      | .returnLine _ => beginReturn o.position s

/-- The order at the head starts. A skipped order leaves the queue, so as many turns as there are orders
are enough. -/
def startOrder (s : State) : State := startOrders s.strikeQueue.length s

/-- R70, R71: after a completion within a group, its next order starts in the same event. -/
def continueGroup (s : State) : State :=
  if s.engine.state = .running ∧ s.engine.groupStarted ∧ s.engine.order = none then startOrder s else s

/-! ### The group start judgement (R69, R70) -/

/-- R70: whether the cycle time has not elapsed. -/
def cycleWaits (s : State) : Bool :=
  match s.engine.cycleTimer with
  | none => false
  | some t => s.now < t + cycleTime s.effectiveSpeed

/-- R69: the judgement, whose steps stop at the first that holds. -/
def judgeStart (s : State) : State :=
  if s.sensors.isOpen .paper then enterState (.paused .paper) s
  else if s.impression.band = .critical then enterState (.paused .supply) s
  else if coolingCalls s.impression then
    latchCooling (setEngine { s.engine with groupWait := some .cooling } s)
  else if cycleWaits s then setEngine { s.engine with groupWait := some .cycle } s
  else
    startOrder (setEngine { s.engine with
      groupWait := none, latchedSpeed := some s.effectiveSpeed, cycleTimer := some s.now,
      groupStarted := true } s)

/-- R69: whether a group start is to be judged: RUNNING, no order in progress, no feed motion, and no
wait standing. -/
def startDue (s : State) : Bool :=
  s.engine.state == .running && s.engine.order.isNone && s.engine.feed.isNone && s.strikeQueue != [] &&
    s.engine.groupWait.isNone

/-- R60: READY and RUNNING follow the strike queue, without a report. -/
def syncRunning (s : State) : State :=
  match s.engine.state with
  | .ready =>
    if s.strikeQueue = [] then s else setEngine { s.engine with state := .running, groupWait := none } s
  | .running =>
    if s.strikeQueue = [] then
      setEngine { s.engine with state := .ready, groupWait := none, groupStarted := false } s
    else s
  | _ => s

/-! ### Settling -/

/-- The strike queue is supplied, READY and RUNNING follow it, and a start that is due is judged; again
while a judgement has left one due. -/
def settleLoop : Nat → State → State
  | 0, s => s
  | n + 1, s =>
    let s := syncRunning (supplyQueue s)
    if startDue s then settleLoop n (judgeStart s) else s

/-- Enough turns: a turn that leaves a start due has taken an order off the queue, a cell still to be planned
brings at most nine orders to it, and a waiting lift or the deferred one at most thirty-two. -/
def settleFuel (s : State) : Nat :=
  9 * s.line.cells.length + s.strikeQueue.length + 32 * (s.correction.waiting.length + 1) + 1

/-- R63: whether the profile of the mounted wheel is active. -/
def profileMounted (w : WheelUnit) : Bool := (activeProfile w).any fun p => p.code == w.mounted

def EngineState.isWorking : EngineState → Bool
  | .ready | .running => true
  | _ => false

/-- The end of an event in the text path: an engine in IDENTIFYING whose wheel's profile has become active
leaves it with one report for the state reached (R60, R63); then the queue is supplied and starts are
judged. -/
def settle (s : State) : State :=
  if s.engine.state = .identifying ∧ profileMounted s.wheel then
    let t := settleLoop (settleFuel s) (setEngine { s.engine with state := .ready } s)
    if t.engine.state.isWorking then engineReport t else t
  else settleLoop (settleFuel s) s

/-! ### The cover (R77, R78) -/

/-- R77: the cover opens. -/
def coverOpened (s : State) : State :=
  match s.engine.state with
  | .unhomed | .paused .cover | .faulted _ => s
  | _ =>
    let brake := s.engine.order.any fun o => o.phase == .brake
    let order := if brake then s.engine.order else none
    let s := addHeat (heatOfCut s false) s
    let s := enterState (.paused .cover) (setEngine { s.engine.halted with order := order } s)
    if brake then completeOrder s else s

/-- R78: the cover closes. -/
def coverClosed (s : State) : State :=
  match s.engine.state with
  | .paused .cover => beginHoming s
  | _ => s

end Sys2Proof.Machine
end

