-- ==== Sys2Proof/Machine/Display.lean ====
section
/-!
DEFINITION. The Display Controller (R143 to R150): the cursor index, the window, the shapes of the cells,
blinking, the status columns, and the render.
-/

namespace Sys2Proof.Machine

/-! ### The cursor and the window (R144 to R146) -/

/-- The greatest end among some cells; 0 of none. -/
def greatestEnd (cells : List Cell) : Nat := (cells.map Cell.stop).foldl max 0

/-- R144: the cursor index. -/
def cursorIndex (cells : List Cell) (p : Nat) : Nat :=
  let line := composingCells cells
  let first := cells.length - line.length
  if line = [] ∨ greatestEnd line ≤ p then cells.length
  else
    match line.findIdx? fun c => p ≤ c.start with
    | some i => first + i
    | none => cells.length

/-- R146: the window judged. -/
def judgeWindow (c ws : Nat) : Nat := if 27 + ws < c then c - 20 else if c < ws then c - 7 else ws

/-! ### Shapes (R143, R148, R151) -/

/-- R143: the shape of a cell. -/
def shapeOf (c : Cell) : Shape :=
  if c.unprintable then .block
  else
    match c.kind with
    | .glyph | .composite => .char (c.glyph.getD 0)
    | .space => .blank
    | .tab => .rightArrow
    | .lineEnd => .returnSymbol

/-- R143: whether a cell lights its underline row. -/
def underlineLit (c : Cell) : Bool :=
  match c.kind with
  | .glyph | .composite | .space => c.underline && !c.underlineDropped
  | .tab | .lineEnd => false

/-- R148: whether a cell belongs to a word that blinks. -/
def blinks (words : List Word) (c : Cell) : Bool :=
  match c.word with
  | none => false
  | some id => (unknownWords words).any fun w => w.id == id

/-- R143, R148: what a text column shows of a cell. -/
def showCell (s : State) (c : Cell) : DisplayCell :=
  if blinks s.spelling.words c && !s.display.wordBlinkOn then .blank
  else { shape := shapeOf c, underlineRow := underlineLit c }

/-- R151: an overlay's code in its column. -/
def showCode (b : Byte) : DisplayCell :=
  { shape := if isSpaceCode b then .blank else .char b, underlineRow := false }

/-- A list of display cells made to a length with blanks. -/
def padCells (n : Nat) (cells : List DisplayCell) : List DisplayCell :=
  cells.take n ++ List.replicate (n - cells.length) .blank

/-- R149: the cursor's underscore, in phase ON. -/
def withCursor (on : Bool) (column : Nat) (cells : List DisplayCell) : List DisplayCell :=
  if on then cells.modify column (fun c => { c with underlineRow := true }) else cells

/-- R143, R149, R151: the 28 text columns. -/
def textCells (s : State) : List DisplayCell :=
  match s.display.overlay with
  | some o => padCells Config.textColumns (o.codes.map showCode)
  | none =>
    withCursor s.display.cursorBlinkOn s.display.cursorColumn
      (padCells Config.textColumns ((s.line.cells.drop s.display.windowStart).map (showCell s)))

/-! ### Status columns (R150) -/

def statusChar (n : Nat) : DisplayCell := { shape := .char (byte n), underlineRow := false }

/-- R150, column 28: the pitch ('0', '2', '5', 'P'). -/
def pitchColumn : Pitch → DisplayCell
  | .ten => statusChar 0x30 | .twelve => statusChar 0x32 | .fifteen => statusChar 0x35
  | .proportional => statusChar 0x50

/-- R150, column 29: the composing mode ('D', 'W', 'L'). -/
def modeColumn : ComposingMode → DisplayCell
  | .direct => statusChar 0x44 | .word => statusChar 0x57 | .line => statusChar 0x4C

/-- R150, column 30: '?' over '-', 'f' and 'h'. -/
def spellingColumn (s : State) : DisplayCell :=
  if unknownWords s.spelling.words ≠ [] then statusChar 0x3F
  else
    match s.composer.format.spelling with
    | .off => statusChar 0x2D
    | .flag => statusChar 0x66
    | .hold => statusChar 0x68

/-- R150, column 31: '!', '#', '*' or blank. -/
def carriageColumn (s : State) : DisplayCell :=
  if s.engine.state.isFaulted then statusChar 0x21
  else if s.engine.state.isPaused then statusChar 0x23
  else if s.composer.format.zoneStart ≤ s.composer.printPoint then statusChar 0x2A
  else .blank

def statusCells (s : State) : List DisplayCell :=
  [pitchColumn s.composer.format.pitch, modeColumn s.composer.format.mode, spellingColumn s,
    carriageColumn s]

/-! ### The render (R146, R147, R149) -/

/-- R144, R146, R149: the window, the cursor and the cursor timer of a render. -/
def placeCursor (s : State) : Display :=
  let d := s.display
  let c := cursorIndex s.line.cells s.composer.printPoint
  let ws := judgeWindow c d.windowStart
  let moved := ws != d.windowStart || c - ws != d.cursorColumn
  { d with
    windowStart := ws, cursorIndex := c, cursorColumn := c - ws
    cursorBlinkOn := d.cursorBlinkOn || moved
    cursorBlinkDue := if moved then s.now + Config.cursorBlinkTime else d.cursorBlinkDue }

/-- R147: a render; none while rendered is off (R154). -/
def render (s : State) : State :=
  if s.display.rendered then
    let t := { s with display := placeCursor s }
    { t with display := { t.display with cells := textCells t ++ statusCells t } }
  else s

end Sys2Proof.Machine
end

