-- ==== Sys2Proof/Machine/Link.lean ====
section
/-!
DEFINITION. The transmit side of the Link Controller (R176, R177, R179, R181): the current state that a
report adds, the choice of the next frame, and the joining of replies and NAKs.
-/

namespace Sys2Proof.Machine

def setLink (l : Link) (s : State) : State := { s with link := l }

/-! ### Report bodies (R179, R181) -/

/-- R181, R183: the key queue room. -/
def keyRoom (s : State) : Nat := Config.keyQueueMax - s.composer.keyQueue.length

/-- R184: the active profile's code; 0 for none. -/
def activeCode (s : State) : Nat := ((activeProfile s.wheel).map (·.code)).getD 0

/-- The four debounced states, in the order of the inputs. -/
def sensorStates (x : Sensors) : List Byte :=
  [x.cover, x.paper, x.tape, x.ribbon].map fun i => byte (switchCode i.debounced)

/-- R181: the current state of a kind, added when its report begins to be sent. In a WHEEL report the active profile's
code is 0 when no profile is active, as GET-STATUS and GET-WHEEL send it; for this report no rule says whether 0 or
R185's 0xFF stands for "none" (DESIGN CHOICE, log entry 9). -/
def currentState (s : State) : ReportKind → List Byte
  | .start => []
  | .engine =>
    [byte s.engine.state.code, byte s.engine.state.reasonCode] ++ carriageBytes s.engine.carriage ++
      [optByte s.engine.wheelPosition, byte s.strikeQueue.length]
  | .line => [byte s.line.cells.length] ++ be16 s.composer.printPoint
  | .lift => [byte s.strikeQueue.length]
  | .spell =>
    [byte s.spelling.unit.code, byte s.spelling.checkQueue.length,
     byte (unknownWords s.spelling.words).length]
  | .zone => be16 s.composer.printPoint
  | .sensor => sensorStates s.sensors
  | .supply => [byte s.impression.band.code, byte s.effectiveSpeed]
  | .memory =>
    [byte s.memory.state.code, byte s.memory.protect, byte (boolCode s.memory.downloadOpen)]
  | .wheel => [byte s.wheel.mounted, byte (activeCode s), byte s.wheel.resolution.code]
  | .key => [byte (keyRoom s)]

/-- R181: a report frame, its body cut at 56 bytes. -/
def reportFrame (s : State) (e : ReportEntry) : OutFrame :=
  { kind := 0xFD, tag := byte e.occurrences
    body := ([byte (0x81 + e.kind.index), byte e.reason] ++ e.detail ++ currentState s e.kind).take
      Config.bodyMax }

/-! ### The transmit line (R181) -/

/-- The time that some bytes take on the line: ten bits each (R175), rounded up to a tenth of a
millisecond. -/
def lineTime (rate bytes : Nat) : Time := ceilDiv (bytes * 100000) rate

/-- R181: a frame begins to be sent; start, length, kind, tag and check byte stand around its body. -/
def sendFrame (f : OutFrame) (s : State) : State :=
  setLink { s.link with
    transmit := some { frame := f, ends := s.now + lineTime s.link.rate (5 + f.body.length) } } s

/-- R181, R182: the line chooses its next frame when it is IDLE and something waits. -/
def chooseFrame (s : State) : State :=
  if s.pins.resetLow ∨ s.link.transmit ≠ none then s
  else
    match s.link.replies with
    | r :: rest => sendFrame r (setLink { s.link with replies := rest } s)
    | [] =>
      if s.link.resetPending then s
      else
        match s.link.reports with
        | [] => s
        | e :: rest => sendFrame (reportFrame s e) (setLink { s.link with reports := rest } s)

/-! ### Replies (R176, R177) -/

/-- What a request is answered: its status and the data that follow. -/
structure Answer where
  status : Status
  data : List Byte
  deriving DecidableEq, Repr

def Answer.ok : Answer := { status := .ok, data := [] }

/-- An answer without data. -/
def Status.alone (x : Status) : Answer := { status := x, data := [] }

/-- What an owner makes of a request. -/
abbrev Handled := State × Answer

def queueFrame (f : OutFrame) (s : State) : State :=
  setLink { s.link with replies := s.link.replies ++ [f] } s

/-- R177: the reply to a request of kind `kind`. -/
def replyFrame (kind tag : Byte) (a : Answer) : OutFrame :=
  { kind := 0x80 + kind, tag := tag, body := byte a.status.code :: a.data }

/-- R176: a NAK. -/
def nakFrame (tag : Byte) (body : List Byte) : OutFrame := { kind := 0xFE, tag := tag, body := body }

/-- R177, R181: the reply joins the reply queue, and the line chooses. -/
def reply (kind tag : Byte) (h : Handled) : State := chooseFrame (queueFrame (replyFrame kind tag h.2) h.1)

/-! ### The framer (R175, R177, R182) -/

/-- R175: the framer returns to HUNTING and the gap timer is stopped. -/
def hunt (s : State) : State := setLink { s.link with framer := .hunting, frame := .clear, gap := none } s

/-- R177, R182: whether a frame or NAK is discarded when it is complete. -/
def discards (s : State) : Bool :=
  s.pins.resetLow || s.link.resetPending || Config.repliesMax ≤ s.link.replies.length

/-- R176: a NAK takes a place in the reply queue, unless it is discarded. -/
def drawNak (tag : Byte) (body : List Byte) (s : State) : State :=
  if discards s then s else chooseFrame (queueFrame (nakFrame tag body) s)

end Sys2Proof.Machine
end

