-- ==== Sys2Proof/Machine/Composer.lean ====
section
/-!
DEFINITION. The Composer's judgement of its head item (R3, R120), the end of an event in the text path,
and the taking of an item (R3, R4, R152).
-/

namespace Sys2Proof.Machine

/-! ### The head item (R3, R120) -/

/-- R30 case 4: the condition "would wrap" and its refusal by R33 are reached alike. -/
def reachesWrap (s : State) (code : Byte) : Bool :=
  match placeGlyph s code with
  | .wrap _ _ _ | .wrapRefused _ _ => true
  | _ => false

/-- R111, R120: the subject of the cell that placement gives an item, where that cell would be created. -/
def holdSubject (s : State) (code : Byte) : Option (Nat × Nat) :=
  if isSpaceCode code then
    match placeSpace s with
    | .create p a _ => some (p, p + a)
    | _ => none
  else
    match placeGlyph s code with
    | .create _ p a _ => some (p, p + a)
    | .wrap _ p a => some (p, p + a)
    | _ => none

/-- R120: the HOLD watch that holds an item, if one does and no pass is granted. -/
def holdingWatch (s : State) (code : Byte) : Option Nat :=
  if (isGlyphCode code || isSpaceCode code) && s.wheel.active.isSome && !s.zone.holdPass then
    match holdSubject s code with
    | some (start, stop) => actingWatch s.zone .hold start stop
    | none => none
  else none

/-- R3, R130: backpressure. -/
def backpressure (s : State) : Bool :=
  s.composer.format.spelling != .off && Config.checkQueueMax ≤ s.spelling.checkQueue.length

/-- R3: the wait conditions that hold for an item. -/
def waitsFor (s : State) (code : Byte) : Waits :=
  { backpressure := backpressure s
    secondLineEnd := hasLineEnd s.line.cells &&
      (code == 0x0D || (isGlyphCode code && reachesWrap s code))
    noWheel := (isGlyphCode code || isSpaceCode code) && s.wheel.active.isNone
    watchHold := (holdingWatch s code).isSome }

def Waits.any (w : Waits) : Bool := w.backpressure || w.secondLineEnd || w.noWheel || w.watchHold

def setWaits (w : Waits) (s : State) : State := { s with composer := { s.composer with waits := w } }

/-- R111: L of the line that an item's cell would stand on: that of the new line for an item that wraps. -/
def subjectLeft (s : State) (code : Byte) : Nat :=
  if isGlyphCode code && reachesWrap s code then s.composer.format.leftMargin
  else s.line.composing.leftMargin

/-- R120: ZONE (WATCH-HOLD), once for the item at the head. -/
def noteHold (code : Byte) (s : State) : State :=
  match holdingWatch s code, holdSubject s code with
  | some w, some (start, stop) =>
    if s.zone.holdNoted then s
    else
      zoneEvent .watchHold (some w) (subjectLeft s code) start stop code
        { s with zone := { s.zone with holdNoted := true } }
  | _, _ => s

/-- R3: the Composer judges its head item. -/
def judgeHead (s : State) : State :=
  match s.composer.keyQueue with
  | [] => setWaits .clear s
  | code :: _ => noteHold code (setWaits (waitsFor s code) s)

/-! ### The end of an event -/

/-- The end of an event in the text path: strike queue and engine settle, a lookup may begin (R130), the
Composer judges its head item (R3), the arbiter grants (R159), the display renders (R147). -/
def textEnd (s : State) : State := render (grant (judgeHead (beginLookup (settle s))))

/-- The same, with the line's choice of its next frame (R181): the end of an event that is no request. -/
def textEvent (s : State) : State := chooseFrame (textEnd s)

/-- The end of an event that touches no text: the display renders and the line chooses. -/
def plainEvent (s : State) : State := chooseFrame (render s)

/-! ### Taking an item (R3, R4) -/

/-- R3, R152, R120, R121: the head item leaves the queue; an overlay ends; hold pass and hold noted go
with the item. -/
def takeHead (rest : List Byte) (s : State) : State :=
  { s with
    composer := { s.composer with keyQueue := rest, waits := .clear }
    display := { s.display with overlay := none }
    zone := { s.zone with holdPass := false, holdNoted := false } }

/-- R3: the Composer takes the head item if it is of a class and no wait condition holds for it, and carries
it out; an item that waits stays, and the judgement of it is recorded. The bell is armed where the print
point has moved left of the zone (R117). -/
def takeItem (accepts : Byte → Bool) (carryOut : Byte → State → State) (s : State) : State :=
  match s.composer.keyQueue with
  | [] => s
  | code :: rest =>
    if accepts code then
      if (waitsFor s code).any then textEvent s
      else
        textEvent (rearmAfter s.composer.printPoint (carryOut code (takeHead rest s)))
    else s

end Sys2Proof.Machine
end

