-- ==== Sys2Proof/Machine/Items.lean ====
section
/-!
DEFINITION. What the key items do (R4, R5, R8, R10, R13 to R20, R26 to R33): the creation of cells, the wrap,
the line end, and the items that create no cell but for the corrections, which are in Correction.lean.
-/

namespace Sys2Proof.Machine

/-! ### KEY events (R4, R5, R10, R97) -/

def raiseKey (reason : Nat) (detail : List Byte) (s : State) : State := raise .key reason detail s

/-- R10: an item that would take the list past 200 cells. -/
def refuseLineFull (code : Byte) (s : State) : State := askSound .error (raiseKey 2 [code] s)

/-- R5: a code that the wheel does not carry. -/
def refuseNotOnWheel (code : Byte) (s : State) : State := askSound .error (raiseKey 1 [code] s)

/-- R10: whether so many more cells would take the list past 200. -/
def lineFull (s : State) (adds : Nat) : Bool := Config.cellsMax < s.line.cells.length + adds

/-! ### New cells (R5, R6, R13 to R15) -/

/-- R13 to R15: the state a cell is created in. -/
def ComposingMode.newState : ComposingMode → CellState
  | .direct => .pending
  | .word | .line => .held

/-- R6: the id that a new cell is given. -/
def newCellId (s : State) : Nat := freeId s.composer.nextCellId (s.line.cells.map (·.id))

/-- A cell without attributes, flags, word or strike records, in the state of the composing mode. -/
def plainCell (s : State) (kind : CellKind) (glyph : Option Byte) (start advance : Nat) : Cell :=
  { id := newCellId s, kind := kind, glyph := glyph, start := start, advance := advance, bold := false,
    underline := false, pastMargin := false, state := s.composer.format.mode.newState, word := none,
    strikes := [], underlineDropped := false, unprintable := false }

/-- R5: a GLYPH, COMPOSITE or SPACE cell; a SPACE cell takes the underline attribute alone. -/
def attributedCell (s : State) (kind : CellKind) (code : Byte) (start advance : Nat) (past : Bool) : Cell :=
  { plainCell s kind (some code) start advance with
    bold := s.composer.bold && kind != .space, underline := s.composer.underline, pastMargin := past }

/-- R6, R7, R17: a cell joins the end of the list; the print point becomes its end. -/
def appendCell (c : Cell) (openRun : List Nat) (s : State) : State :=
  { s with
    line := { s.line with cells := s.line.cells ++ [c] }
    composer := { s.composer with
      nextCellId := (c.id + 1) % 256, printPoint := c.stop, openRun := openRun
      marginRelease := s.composer.marginRelease && !c.pastMargin } }

/-- R14: in WORD mode an ending cell moves the release mark to itself. -/
def releaseEnding (cell : Nat) (s : State) : State :=
  if s.composer.format.mode = .word then releaseTo cell s else s

/-- R4, R30: a GLYPH or COMPOSITE cell is created at the print point: the cell, the bell, the word. -/
def createGlyph (kind : CellKind) (code : Byte) (start advance : Nat) (past : Bool) (s : State) : State :=
  let c := attributedCell s kind code start advance past
  spellCell c.id (judgeBell c (appendCell c (s.composer.openRun ++ [c.id]) s))

/-- R4, R29: a SPACE cell is created: the cell, the word, and in WORD mode its release. -/
def createSpace (start advance : Nat) (past : Bool) (s : State) : State :=
  let c := attributedCell s .space 0x20 start advance past
  releaseEnding c.id (spellCell c.id (appendCell c [] s))

/-- R4, R28: a TAB cell reaching to the target. -/
def createTab (target : Nat) (s : State) : State :=
  let c := plainCell s .tab none s.composer.printPoint (target - s.composer.printPoint)
  releaseEnding c.id (spellCell c.id (appendCell c [] s))

/-- R12, R14, R15: a line end moves the release mark to its LINE-END cell, but in DIRECT mode. -/
def releaseLine (cell : Nat) (s : State) : State :=
  if s.composer.format.mode = .direct then s else releaseTo cell s

/-- R4, R8, R17: a RETURN item ends the composing line. -/
def createReturn (s : State) : State :=
  let c := plainCell s .lineEnd none s.composer.printPoint 0
  let s := endLine .byReturn (appendCell c [] s)
  releaseLine c.id (spellLineEnd (setPrintPoint s.line.composing.leftMargin s))

/-! ### Wrap (R32) -/

/-- R32 step 4: cells placed one after another from a position. -/
def placeFrom (at_ : Nat) : List Cell → List Cell
  | [] => []
  | c :: rest => { c with start := at_ } :: placeFrom (at_ + c.advance) rest

/-- R32 step 1: the cells with the LINE-END cell inserted before the run, or at the end of the list. -/
def insertLineEnd (c : Cell) (run : List Nat) (cells : List Cell) : List Cell :=
  (cells.takeWhile fun d => !run.contains d.id) ++ [c] ++ (cells.dropWhile fun d => !run.contains d.id)

/-- R32: the start of an automatic LINE-END cell: the end of the cell before it, or the old L. -/
def wrapStart (s : State) (run : List Nat) : Nat :=
  (((s.line.cells.takeWhile fun d => !run.contains d.id).getLast?).map Cell.stop).getD
    s.line.composing.leftMargin

/-- R145: the window start after a cell has been inserted at an index. -/
def windowAfterInsert (index ws : Nat) : Nat := if index < ws then ws + 1 else ws

/-- R32 steps 1 to 3: the automatic LINE-END cell is inserted and the old line ends. -/
def wrapLine (run : List Nat) (s : State) : State :=
  let c := plainCell s .lineEnd none (wrapStart s run) 0
  let index := (s.line.cells.takeWhile fun d => !run.contains d.id).length
  endLine .byWrap
    { s with
      line := { s.line with cells := insertLineEnd c run s.line.cells }
      composer := { s.composer with nextCellId := (c.id + 1) % 256 }
      display := correctWindow (windowAfterInsert index s.display.windowStart) s }

/-- R32 step 4: the composing line's cells, which are the open word, are placed from the new L. -/
def placeRun (s : State) : State :=
  { s with line := { s.line with
      cells := endedCells s.line.cells ++
        placeFrom s.line.composing.leftMargin (composingCells s.line.cells) } }

/-- R32: a glyph item wraps. -/
def wrapGlyph (kind : CellKind) (code : Byte) (start advance : Nat) (s : State) : State :=
  let run := (wrapRun s).map (·.id)
  let lineEnd := newCellId s
  let s := placeRun (wrapLine run s)
  let c := attributedCell s kind code start advance false
  let s := judgeBell c (appendCell c (run ++ [c.id]) s)
  releaseLine lineEnd (spellCell c.id (spellLineEnd s))

/-! ### The items that create cells -/

/-- R5, R10, R30: a glyph item. -/
def takeGlyph (code : Byte) (s : State) : State :=
  match placeGlyph s code with
  | .notOnWheel => refuseNotOnWheel code s
  | .carriageEnd p a =>
    if lineFull s 1 then refuseLineFull code s else refuseCarriageEnd p (p + a) code s
  | .rightStop p a =>
    if lineFull s 1 then refuseLineFull code s else refuseRightStop p (p + a) code s
  | .wrapRefused p a =>
    if lineFull s 2 then refuseLineFull code s else refuseRightStop p (p + a) code s
  | .create kind p a past =>
    if lineFull s 1 then refuseLineFull code s else createGlyph kind code p a past s
  | .wrap kind p a =>
    if lineFull s 2 then refuseLineFull code s else wrapGlyph kind code p a s

/-- R10, R29: a space item. -/
def takeSpace (code : Byte) (s : State) : State :=
  if lineFull s 1 then refuseLineFull code s
  else
    match placeSpace s with
    | .carriageEnd p a => refuseCarriageEnd p (p + a) code s
    | .create p a past => createSpace p a past s

/-- R10, R28: a TAB item. -/
def takeTab (code : Byte) (s : State) : State :=
  if lineFull s 1 then refuseLineFull code s
  else
    match tabTarget s with
    | none => refuseRightStop s.composer.printPoint s.composer.printPoint code s
    | some t => createTab t s

/-- R8, R10: a RETURN item. -/
def takeReturn (code : Byte) (s : State) : State :=
  if lineFull s 1 then refuseLineFull code s else createReturn s

/-! ### The items that create no cell -/

/-- R18: the newest HELD cell of the composing line. -/
def newestHeld (s : State) : Option Cell := ((composingCells s.line.cells).filter Cell.isHeld).getLast?

/-- R31: the open word, for wrap, is closed. -/
def closeRun (s : State) : State := { s with composer := { s.composer with openRun := [] } }

/-- R18: a HELD cell is removed and the print point becomes its start. -/
def removeHeld (c : Cell) (s : State) : State :=
  setPrintPoint c.start (removeCells true (fun d => d.id == c.id) (closeRun s))

/-- R18: the distance of a BACKSPACE without HELD cells. -/
def backDistance (s : State) : Nat :=
  match ((composingCells s.line.cells).filter fun c => c.stop == s.composer.printPoint).getLast? with
  | some c => c.advance
  | none => s.composer.format.nominalAdvance

/-- R18, R125: a BACKSPACE item. -/
def takeBackspace (code : Byte) (s : State) : State :=
  let s := completeOpenWord s
  match newestHeld s with
  | some c => removeHeld c s
  | none => backUp (backDistance s) code (closeRun s)

/-- R19: the greatest end of the composing line's cells, or its L. -/
def relocateTo (s : State) : Nat :=
  match composingCells s.line.cells with
  | [] => s.line.composing.leftMargin
  | line => greatestEnd line

/-- R19, R125: a RELOCATE item. -/
def takeRelocate (s : State) : State :=
  let s := closeRun (completeOpenWord s)
  setPrintPoint (relocateTo s) s

/-- R20. -/
def takeBold (s : State) : State := { s with composer := { s.composer with bold := !s.composer.bold } }

/-- R20. -/
def takeUnderline (s : State) : State :=
  { s with composer := { s.composer with underline := !s.composer.underline } }

/-- R20, R115. -/
def takeMarginRelease (s : State) : State :=
  { s with composer := { s.composer with marginRelease := true } }

/-- R4: a code that names no item. -/
def takeUnassigned (code : Byte) (s : State) : State := raiseKey 0 [code] s

/-! ### The commands -/

/-- GLYPH_ITEM (R5, R10, R30, R32). -/
def execGlyphItem (s : State) : Host.Outcome State Fault Refusal := .next (takeItem isGlyphCode takeGlyph s)

/-- SPACE_ITEM (R10, R29). -/
def execSpaceItem (s : State) : Host.Outcome State Fault Refusal := .next (takeItem isSpaceCode takeSpace s)

/-- TAB_ITEM (R10, R28). -/
def execTabItem (s : State) : Host.Outcome State Fault Refusal :=
  .next (takeItem (fun c => c == 0x09) takeTab s)

/-- RETURN_ITEM (R8, R10). -/
def execReturnItem (s : State) : Host.Outcome State Fault Refusal :=
  .next (takeItem (fun c => c == 0x0D) takeReturn s)

/-- BACKSPACE_ITEM (R18). -/
def execBackspaceItem (s : State) : Host.Outcome State Fault Refusal :=
  .next (takeItem (fun c => c == 0x08) takeBackspace s)

/-- RELOCATE_ITEM (R19). -/
def execRelocateItem (s : State) : Host.Outcome State Fault Refusal :=
  .next (takeItem (fun c => c == 0x1E) (fun _ => takeRelocate) s)

/-- BOLD_ITEM (R20). -/
def execBoldItem (s : State) : Host.Outcome State Fault Refusal :=
  .next (takeItem (fun c => c == 0x02) (fun _ => takeBold) s)

/-- UNDERLINE_ITEM (R20). -/
def execUnderlineItem (s : State) : Host.Outcome State Fault Refusal :=
  .next (takeItem (fun c => c == 0x15) (fun _ => takeUnderline) s)

/-- MARGIN_RELEASE_ITEM (R20, R115). -/
def execMarginReleaseItem (s : State) : Host.Outcome State Fault Refusal :=
  .next (takeItem (fun c => c == 0x1B) (fun _ => takeMarginRelease) s)

/-- UNASSIGNED_ITEM (R4). -/
def execUnassignedItem (s : State) : Host.Outcome State Fault Refusal :=
  .next (takeItem isUnassignedCode takeUnassigned s)

end Sys2Proof.Machine
end

