-- ==== Sys2Proof/Machine/Correction.lean ====
section
/-!
DEFINITION. The correction path of the Composer (R97 to R101, R104 to R107): the choice of a target, what is
done with it, the reopening of a line, and the run of a WORD-CORRECT.
-/

namespace Sys2Proof.Machine

/-- R97, R98, R106: KEY (NOTHING-TO-LIFT), with the item code and the print point after the item. -/
def nothingToLift (code : Byte) (s : State) : State :=
  raiseKey 3 ([code] ++ be16 s.composer.printPoint) s

/-- R97, R104, R105: LIFT (UNREACHABLE). -/
def unreachable (cell : Nat) (s : State) : State := askSound .error (raise .lift 3 [byte cell] s)

/-! ### One cell corrected (R98 to R101, R107) -/

/-- What became of a cell that a correction took: whether it was accepted, and the cells that have left
the list, of which the Spelling Unit is told at the end of the event (R127). -/
structure Corrected where
  state : State
  accepted : Bool
  removed : List Cell
  deriving DecidableEq, Repr

/-- R98: the cell is removed from the list. -/
def correctRemoving (c : Cell) (s : State) : Corrected :=
  { state := setPrintPoint c.start (dropCells (fun d => d.id == c.id) s), accepted := true, removed := [c] }

/-- R98: a stop: nothing is done, and KEY (NOTHING-TO-LIFT) is raised. -/
def correctStopped (code : Byte) (s : State) : Corrected :=
  { state := nothingToLift code s, accepted := false, removed := [] }

def correctRefused (check : LiftCheck) (c : Cell) (s : State) : Corrected :=
  { state := refuseLift check c.id c.strikes.length s, accepted := false, removed := [] }

/-- R100: an accepted LIFT group goes to the tail of the strike queue or to the waiting-lift list. -/
def placeLift (g : LiftGroup) (s : State) : State :=
  if s.correction.waiting = [] ∧ g.orders.length ≤ queueRoom s then
    setCellState g.cell .lifting (addAtTail g.orders s)
  else { s with correction := { s.correction with waiting := s.correction.waiting ++ [g] } }

/-- R98 to R101, R107: a cell is corrected according to its state. -/
def correctCell (code : Byte) (c : Cell) (s : State) : Corrected :=
  match c.state with
  | .held | .pending => correctRemoving c s
  | .ordered =>
    if groupInProgress s c.id then
      if s.correction.deferred = some c.id then correctStopped code s
      else
        match checkLift s c.strikes with
        | .passed =>
          { state := setPrintPoint c.start
              { s with correction := { s.correction with deferred := some c.id } }
            accepted := true, removed := [] }
        | failed => correctRefused failed c s
    else correctRemoving c (removeGroup c.id s)
  | .struck =>
    if c.strikes = [] then correctRemoving c s
    else if s.correction.waiting.any fun g => g.cell == c.id then correctStopped code s
    else
      match checkLift s c.strikes with
      | .passed =>
        { state := setPrintPoint c.start (placeLift (buildLift c) s), accepted := true, removed := [] }
      | failed => correctRefused failed c s
  | .lifting => correctStopped code s

/-- R9, R127, R12: the end of a correction that has removed cells. -/
def tellRemoved (removed : List Cell) (s : State) : State :=
  if removed = [] then s else releaseAdvance (spellRemoved false removed s)

/-! ### CORRECT (R97, R104, R105) -/

/-- R97: what a CORRECT item without HELD cells finds at the print point. -/
inductive Target where
  | cell (c : Cell)
  | lineEnd (c : Cell)
  | beyond (cell : Nat)
  | nothing
  deriving DecidableEq, Repr

/-- R97: the search, by the print point. -/
def chooseTarget (s : State) : Target :=
  let p := s.composer.printPoint
  let line := composingCells s.line.cells
  match (line.filter fun c => c.stop == p).getLast? with
  | some c => .cell c
  | none =>
    match s.line.cells.find? fun c => c.kind == .lineEnd with
    | none => .nothing
    | some e =>
      if line = [] ∧ p = s.line.composing.leftMargin then .lineEnd e
      else
        match ((paperCells s.line.cells).filter fun c => c.stop == p).getLast? with
        | some c => .beyond c.id
        | none => .nothing

/-- R105: whether an ended line may be reopened: its LINE-END cell HELD, PENDING or ORDERED with its RETURN
group not started, and the line left flush left. -/
def mayReopen (s : State) (e : Cell) : Bool :=
  (e.state == .held || e.state == .pending || (e.state == .ordered && !groupInProgress s e.id)) &&
    !(s.line.paper.bind (·.ended)).any (·.moved)

/-- R105: the ended line is reopened. -/
def reopenLine (e : Cell) (s : State) : State :=
  let s := dropCells (fun d => d.id == e.id) (removeGroup e.id s)
  let record : LineRecord := { s.line.paper.getD s.line.composing with ended := none }
  let s := setPrintPoint e.start
    { s with line := { s.line with composing := record, paper := none, releaseMark := none } }
  raise .line 3 [byte s.line.cells.length] s

/-- R97, R125: a CORRECT item. One that finds no target moves the print point back "as a BACKSPACE without HELD
cells does", and leaves the run of the open word as it stands: R31 lets BACKSPACE and RELOCATE items alone close it
(DESIGN CHOICE, log entry 15). -/
def takeCorrect (code : Byte) (s : State) : State :=
  let s := completeOpenWord s
  match newestHeld s with
  | some c => removeHeld c s
  | none =>
    match chooseTarget s with
    | .cell c =>
      let r := correctCell code c s
      tellRemoved r.removed r.state
    | .lineEnd e => if mayReopen s e then reopenLine e s else unreachable e.id s
    | .beyond cell => unreachable cell s
    | .nothing => nothingToLift code (backUp (backDistance s) code s)

/-! ### WORD-CORRECT (R106, R107) -/

/-- R106: the last cell of some cells that a step takes at a position. -/
def cellEndingAt (pick : Cell → Bool) (p : Nat) (cells : List Cell) : Option Cell :=
  (cells.filter fun c => pick c && c.stop == p).getLast?

/-- R106: one step of the walk, repeated: the run from right to left, the position reached, and the cells
not taken. -/
def walkBack (pick : Cell → Bool) : Nat → Nat → List Cell → List Cell × Nat × List Cell
  | 0, p, cells => ([], p, cells)
  | n + 1, p, cells =>
    match cellEndingAt pick p cells with
    | none => ([], p, cells)
    | some c =>
      let (run, q, left) := walkBack pick n c.start (cells.filter fun d => d.id != c.id)
      (c :: run, q, left)

/-- R106: the run: the spaces, then the glyphs. -/
def correctionRun (s : State) : List Cell :=
  let line := composingCells s.line.cells
  let (spaces, p, rest) := walkBack (fun c => c.kind == .space) line.length s.composer.printPoint line
  let (glyphs, _, _) := walkBack Cell.isInk rest.length p rest
  spaces ++ glyphs

/-- R107: the cells of the run are corrected one after another; the first that is refused stops it. -/
def correctRun (code : Byte) : List Cell → State → Corrected
  | [], s => { state := s, accepted := true, removed := [] }
  | c :: rest, s =>
    match findCell s.line.cells c.id with
    | none => correctRun code rest s
    | some c =>
      let r := correctCell code c s
      if r.accepted then
        let t := correctRun code rest r.state
        { t with removed := r.removed ++ t.removed }
      else r

/-- R106, R107, R125: a WORD-CORRECT item. -/
def takeWordCorrect (code : Byte) (s : State) : State :=
  let s := completeOpenWord s
  match correctionRun s with
  | [] => nothingToLift code s
  | run =>
    let r := correctRun code run s
    tellRemoved r.removed r.state

/-! ### The commands -/

/-- CORRECT_ITEM (R97). -/
def execCorrectItem (s : State) : Host.Outcome State Fault Refusal :=
  .next (takeItem (fun c => c == 0x1C) takeCorrect s)

/-- WORD_CORRECT_ITEM (R106). -/
def execWordCorrectItem (s : State) : Host.Outcome State Fault Refusal :=
  .next (takeItem (fun c => c == 0x1D) takeWordCorrect s)

end Sys2Proof.Machine
end

