-- ==== Sys2Proof/Machine/MemoryControl.lean ====
section
/-!
DEFINITION. The Memory Controller's events (R155 to R161, R163 to R166): detection and its end, the end of a
transaction at its user, and the failure of a write.
-/

namespace Sys2Proof.Machine

def setMemory (m : MemoryController) (s : State) : State := { s with memory := m }

def raiseMemory (reason : Nat) (op : MemoryOperation) (detail : List Byte) (s : State) : State :=
  raise .memory reason (byte op.code :: detail) s

/-! ### Settings taken up (R8, R156, R165) -/

/-- R8: an accepted change of the left margin reaches a record already open where the composing line holds
no cell and no LINE-END cell exists. -/
def relatchLeft (before : Nat) (s : State) : State :=
  let left := s.composer.format.leftMargin
  if left ≠ before ∧ s.line.cells = [] then
    setPrintPoint left
      { s with line := { s.line with composing := { s.line.composing with leftMargin := left } } }
  else s

/-- R180: a mask applied: entries of kinds now masked are removed. -/
def applyMask (mask : BitVec 16) (l : Link) : Link :=
  { l with mask := mask, reports := l.reports.filter fun e => mask.getLsbD e.kind.index }

/-- R123: a watch loaded from settings does not act until a SET-WATCH enables it. -/
def Watch.disabled (w : Watch) : Watch := { w with enabled := false }

/-- R156, R165: the settings go to their owners, a change of the spelling mode acting as R23 gives; the report
mask keeps START reported (R183). -/
def applySettings (x : Settings) (s : State) : State :=
  let before := s.composer.format
  let s := { s with
    composer := { s.composer with format := x.format }
    zone := { s.zone with
      tabStops := x.tabStops, watch1 := x.watch1.disabled, watch2 := x.watch2.disabled }
    wheel := { s.wheel with composites := x.composites }
    display := { s.display with contrast := x.contrast }
    sounder := { s.sounder with volume := x.volume }
    link := applyMask (x.mask ||| 1) s.link }
  let s := spellingModeChanged before.spelling x.format.spelling (relatchLeft before.leftMargin s)
  if before.spelling = x.format.spelling then s else releaseAdvance s

/-! ### The end of detection (R156, R183) -/

/-- R183: the START event; the sources are 0 MEMORY and 1 DEFAULTS. -/
def raiseStart (source : Nat) (s : State) : State :=
  raise .start 0
    [1, byte s.memory.state.code, byte (s.memory.sizeCode.getD 0), byte s.memory.protect, byte source] s

/-- R156: the Wheel Unit and the Spelling Unit begin their reads, or find the memory ABSENT. -/
def startReaders (s : State) : State :=
  if s.memory.state = .absent then
    releaseAdvance (becomeUnavailable 0 (setSpelling
      { s.spelling with status := .absent, userIndex := List.replicate 256 none, startup := .none }
      (setWheel
        { s.wheel with
          directoryState := .absent, directory := List.replicate 24 none, directoryRead := 0 } s)))
  else
    askMemory .dictHeader (.read dictionaryBase)
      (setSpelling { s.spelling with startup := .header }
        (askMemory .directory (.read (profileSlotAddress 0))
          (setWheel { s.wheel with directoryState := .loading, directoryRead := 0 } s)))

/-- R156, R83: homing begins when the cover is closed, otherwise the engine becomes PAUSED (COVER). -/
def startEngine (s : State) : State :=
  if s.sensors.isOpen .cover then enterState (.paused .cover) s else beginHoming s

/-- R156: detection ends; the operand is what the settings record holds, when it is valid. -/
def endDetection (settings : Option Settings) (s : State) : State :=
  let s := setMemory { s.memory with detection := .none } s
  let s := applySettings (settings.getD .default) s
  let s := raiseStart (if settings.isSome then 0 else 1) s
  let s := startEngine (startReaders s)
  { s with display := { s.display with rendered := true } }

/-- R155 step 3, R156: the second mismatch. -/
def memoryAbsent (s : State) : State :=
  endDetection none (setMemory { s.memory with state := .absent, sizeCode := none, protect := 3 } s)

/-- R155 step 4: a match: the width, the size, and the protect level from the status register. -/
def memoryFound (x : MemoryState) (header : List Byte) (s : State) : State :=
  setMemory
    { s.memory with
      state := x, sizeCode := some (at8 header 3), protect := s.chip.protectField,
      detection := .settings [] } s

/-- R155: a step of detection ends with its read done. -/
def detectionStep (s : State) : State :=
  match s.memory.detection with
  | .none => s
  | .poll _ =>
    setMemory { s.memory with detection := .header2 }
      { s with chip := { s.chip with busyFlag := false } }
  | .header2 =>
    let header := s.chip.read4 .two 0
    if headerMatches header 2 then memoryFound .twoByte header s
    else setMemory { s.memory with detection := .header3 } s
  | .header3 =>
    let header := s.chip.read4 .three 0
    if headerMatches header 3 then memoryFound .threeByte header s else memoryAbsent s
  | .settings bytes =>
    let bytes := bytes ++ s.chip.read4 s.memory.state.width (0x0040 + bytes.length)
    if bytes.length < 192 then setMemory { s.memory with detection := .settings bytes } s
    else endDetection (Settings.ofImage bytes) s

/-! ### Reads and writes at their users (R158, R159) -/

/-- R158: a user is handed the data of a read. -/
def readEnd (u : User) (data : List Byte) (s : State) : State :=
  match u with
  | .directory => directoryReadEnd data s
  | .fetch => fetchReadEnd data s
  | .dictHeader => headerReadEnd data s
  | .indexLoad => indexReadEnd data s
  | .lookup => lookupReadEnd data s
  | .userWord => userReadEnd data s
  | .dictClose => closeReadEnd data s
  | .store | .settings | .protect | .dictWrite => s

/-- R166: write `k` of the 48 of a settings save. -/
def saveAccess (x : SettingsSave) (k : Nat) : Access :=
  .write (0x0040 + 4 * k) ((x.image.drop (4 * k)).take 4)

/-- R166: a write of the settings save has ended. -/
def saveWriteEnd (s : State) : State :=
  match s.memory.save with
  | none => s
  | some x =>
    let k := x.done + 1
    if 48 ≤ k then raiseMemory 0 .settings [] (setMemory { s.memory with save := none } s)
    else
      askMemory .settings (saveAccess x k)
        (setMemory { s.memory with save := some { x with done := k } } s)

/-- R163: write `k` of the eight of a DICT-WRITE. -/
def dictAccess (x : DictWriteOp) (k : Nat) : Access :=
  .write (dictionaryBase + x.offset + 4 * k) ((x.data.drop (4 * k)).take 4)

/-- R163: a write of the DICT-WRITE has ended. -/
def dictWriteEnd (s : State) : State :=
  match s.memory.dictWrite with
  | none => s
  | some x =>
    let k := x.done + 1
    if 8 ≤ k then
      raiseMemory 0 .dictWrite (be24 x.offset) (setMemory { s.memory with dictWrite := none } s)
    else
      askMemory .dictWrite (dictAccess x k)
        (setMemory { s.memory with dictWrite := some { x with done := k } } s)

/-- R161: the status write of a SET-PROTECT has ended. -/
def protectWriteEnd (s : State) : State :=
  match s.memory.protectChange with
  | none => s
  | some target =>
    raiseMemory 0 .protect [] (setMemory { s.memory with protect := target, protectChange := none } s)

/-- R158: a user is told that its write has ended. -/
def writeEnd (u : User) (s : State) : State :=
  match u with
  | .store => storeWriteEnd s
  | .settings => saveWriteEnd s
  | .userWord => userWriteEnd s
  | .dictWrite => dictWriteEnd s
  | .protect => protectWriteEnd s
  | .directory | .fetch | .dictHeader | .indexLoad | .lookup | .dictClose => s

/-- R158: what a transaction that ends has done in the memory: bytes written, or the protect field; its
latch and busy flag are clear. -/
def Chip.ended (c : Chip) : Access → Chip
  | .read _ => c
  | .write a data => { c with cells := c.cells.writeAll a data, writeLatch := false, busyFlag := false }
  | .statusWrite level => { c with protectField := level, writeLatch := false, busyFlag := false }

/-- R158: the current transaction ends, and its user, if it has not given up, is handed the result. -/
def endTransaction (t : Transaction) (s : State) : State :=
  let data := match t.request.access with
    | .read a => s.chip.read4 s.memory.state.width a
    | _ => []
  let s := setMemory { s.memory with current := none } { s with chip := s.chip.ended t.request.access }
  if t.live then
    if t.request.access.isWrite then writeEnd t.request.user s else readEnd t.request.user data s
  else s

/-- R157: whether a transaction lies within the memory. -/
def Access.within (endOf : Nat) : Access → Bool
  | .read a => a + 4 ≤ endOf
  | .write a _ => a + 4 ≤ endOf
  | .statusWrite _ => true

/-! ### A write that fails (R158) -/

/-- R158, R166: how many of its bytes a failed write has brought into the memory. How far it reached is a free value
(log entry 4), but the settings record, whose check byte stands at 0x00FF, keeps its old one. -/
def failedReach (fresh address length : Nat) : Nat :=
  let reach := min (Config.failedWriteReach fresh) length
  if address ≤ 0x00FF then min reach (0x00FF - address) else reach

/-- R158, R166: what a failed write leaves in the memory: its new bytes as far as it reached, and the old ones beyond;
after a status write, the protect field is a free value. The latch is cleared by the write-disable command. Log
entry 4. -/
def Chip.failed (c : Chip) (fresh : Nat) : Access → Chip
  | .read _ => c
  | .write a data =>
    { c with cells := c.cells.writeAll a (data.take (failedReach fresh a data.length)), writeLatch := false }
  | .statusWrite _ =>
    { c with protectField := (Config.failedStatusField fresh).toNat, writeLatch := false }

/-- R158: the busy poll of a write reaches its limit. -/
def failTransaction (t : Transaction) (s : State) : State :=
  failWrite 1 t.request
    (setMemory { s.memory with current := none, busy := true }
      { s with chip := s.chip.failed s.fresh t.request.access, fresh := s.fresh + 1 })

/-! ### The commands -/

/-- TRANSACTION_END (R158, R155): the transaction of detection or of a user ends. -/
def execTransactionEnd (s : State) : Host.Outcome State Fault Refusal :=
  if s.memory.detecting then .next (textEvent (detectionStep s))
  else
    match s.memory.current with
    | none => .next s
    | some t =>
      if t.request.access.within (endOfMemory s.memory.sizeCode) then .next (textEvent (endTransaction t s))
      else .fault .pastEndOfMemory

/-- WRITE_BUSY_LIMIT (R158). -/
def execWriteBusyLimit (s : State) : Host.Outcome State Fault Refusal :=
  match s.memory.current with
  | some t =>
    match t.busyUntil with
    | some limit => .next (textEvent (failTransaction t (s.reach limit)))
    | none => .next s
  | none => .next s

/-- BUSY_CLEAR (R158). -/
def execBusyClear (s : State) : Host.Outcome State Fault Refusal :=
  if s.memory.busy then
    .next (textEvent (setMemory { s.memory with busy := false }
      { s with chip := { s.chip with busyFlag := false } }))
  else .next s

/-- DETECTION_POLL_LIMIT (R155 step 1): detection goes on all the same. What a memory that is still busy answers to the
reads that follow the rule does not say; the model reads it as it would a ready one (DESIGN CHOICE, log entry 20). -/
def execDetectionPollLimit (s : State) : Host.Outcome State Fault Refusal :=
  match s.memory.detection with
  | .poll limit => .next (setMemory { s.memory with detection := .header2 } (s.reach limit))
  | _ => .next s

end Sys2Proof.Machine
end

