-- ==== Sys2Proof/Machine/Mechanism.lean ====
section
/-!
DEFINITION. The events of the mechanism and of the timers (R61 to R63, R69 to R75, R81, R88 to R94, R148,
R149, R152, R169, R172): the Print Engine's motions, limits, encoder and homing, the sensor inputs, the
rail, and the timers of the display and the sounder.
An event for which the part stands in no state to take it changes nothing (log entry 3).
-/

namespace Sys2Proof.Machine

def setOrder (o : OrderProgress) (s : State) : State := setEngine { s.engine with order := some o } s

/-! ### The group start (R70) -/

/-- When the cycle time of a group waiting in CYCLE expires. -/
def cycleExpiry (s : State) : Time := s.engine.cycleTimer.getD 0 + cycleTime s.effectiveSpeed

/-- CYCLE_TIME_EXPIRY (R70, R69). -/
def execCycleTimeExpiry (s : State) : Host.Outcome State Fault Refusal :=
  if s.engine.groupWait = some .cycle then
    let s := s.reach (cycleExpiry s)
    .next (textEvent (setEngine { s.engine with groupWait := none } s))
  else .next s

/-! ### Motions (R71, R74, R62) -/

/-- The carriage stands where its move was to end. -/
def arrive (position : Nat) (s : State) : State :=
  setEngine { s.engine with carriage := some (position : Int) } s

/-- R71, R74: the carriage move of the order in progress ends. -/
def orderMoveEnd (o : OrderProgress) (s : State) : State :=
  let position := ((s.strikeQueue.head?).map (·.position)).getD 0
  endMoving (setOrder { o with carriage := none } (arrive position s))

/-- R62: the homing return ends at count 0, and the wheel is searched. -/
def homingMoveEnd (s : State) : State :=
  let s := arrive 0 s
  setEngine { s.engine with
    homing := some .wheelSearch, homingLimit := some (s.now + Config.wheelLimit) } s

/-- CARRIAGE_MOVE_END (R71, R74, R62). -/
def execCarriageMoveEnd (s : State) : Host.Outcome State Fault Refusal :=
  if s.engine.homing = some .carriageReturn then .next (homingMoveEnd s)
  else
    match s.engine.order with
    | none => .next s
    | some o => if o.carriage.isSome then .next (textEvent (orderMoveEnd o s)) else .next s

/-- WHEEL_TURN_END (R71). -/
def execWheelTurnEnd (s : State) : Host.Outcome State Fault Refusal :=
  match s.engine.order with
  | none => .next s
  | some o => if o.wheel.isSome then .next (endMoving (setOrder { o with wheel := none } s)) else .next s

/-- PLATEN_MOTION_END (R74). -/
def execPlatenMotionEnd (s : State) : Host.Outcome State Fault Refusal :=
  match s.engine.order with
  | none => .next s
  | some o =>
    if o.platen then .next (textEvent (endMoving (setOrder { o with platen := false } s))) else .next s

/-! ### The phases of a firing (R71, R84) -/

/-- Whether the order at the head is a LIFT order. -/
def headIsLift (s : State) : Bool :=
  match s.strikeQueue with
  | { work := .lift _ _ _ _, .. } :: _ => true
  | _ => false

/-- R84, R85: the drive pulse of the firing that now begins. -/
def firingDrive (s : State) (o : OrderProgress) : Nat :=
  drivePulse o.impression (headIsLift s) s.composer.format.impression s.impression.band

/-- R84, R86: its brake pulse. -/
def firingBrake (s : State) (o : OrderProgress) : Nat :=
  brakePulse (s.engine.latchedSpeed.getD s.effectiveSpeed) (firingDrive s o)

/-- The order in progress, if it stands in a phase. -/
def orderIn (x : OrderPhase) (s : State) : Option OrderProgress :=
  s.engine.order.filter fun o => o.phase == x

/-- SETTLING_END (R71, R84 to R86). -/
def execSettlingEnd (s : State) : Host.Outcome State Fault Refusal :=
  match orderIn .settling s with
  | none => .next s
  | some o =>
    let s := s.reach (o.phaseEnd.getD 0)
    .next (setOrder
      { o with
        phase := .drive, drivePulse := firingDrive s o, brakePulse := firingBrake s o, driveStart := s.now,
        phaseEnd := some (s.now + firingDrive s o) } s)

/-- DRIVE_END (R71). -/
def execDriveEnd (s : State) : Host.Outcome State Fault Refusal :=
  match orderIn .drive s with
  | none => .next s
  | some o =>
    let s := s.reach (o.phaseEnd.getD 0)
    .next (setOrder { o with phase := .brake, phaseEnd := some (s.now + o.brakePulse) } s)

/-- BRAKE_END (R71, R73, R103). -/
def execBrakeEnd (s : State) : Host.Outcome State Fault Refusal :=
  match orderIn .brake s with
  | none => .next s
  | some o => .next (textEvent (continueGroup (completeOrder (s.reach (o.phaseEnd.getD 0)))))

/-! ### Limits and faults (R72, R75) -/

/-- The end of an event that has taken a fault: the display shows it (R150). -/
def faultEvent (r : FaultReason) (s : State) : State := plainEvent (takeFault r s)

/-- R72, R62: when the limit of the carriage move under way falls. -/
def carriageDeadline (s : State) : Option Time :=
  if s.engine.homing = some .carriageReturn then s.engine.homingLimit
  else s.engine.order.bind (·.carriage)

/-- CARRIAGE_MOVE_LIMIT (R72). -/
def execCarriageMoveLimit (s : State) : Host.Outcome State Fault Refusal :=
  match carriageDeadline s with
  | none => .next s
  | some t => .next (faultEvent .jamCarriage (s.reach t))

/-- WHEEL_TURN_LIMIT (R72). -/
def execWheelTurnLimit (s : State) : Host.Outcome State Fault Refusal :=
  match s.engine.order.bind (·.wheel) with
  | none => .next s
  | some t => .next (faultEvent .jamWheel (s.reach t))

/-! ### The encoder (R61, R62) -/

/-- R61: whether a change of one channel counts up: A leading B. `a` and `b` are the new levels. -/
def countsUp (oldA a b : Bool) : Bool := if a ≠ oldA then a != b else a == b

/-- R61: whether a known count is past the overtravel limits. -/
def isOvertravel (c : Int) : Bool := c < Config.overtravelLow || Config.overtravelHigh < c

/-- R61: an edge while the count is known. -/
def countEdge (up : Bool) (c : Int) (s : State) : State :=
  let c := if up then c + 1 else c - 1
  let s := setEngine { s.engine with carriage := some c } s
  if isOvertravel c then faultEvent .overtravel s else s

/-- R61, R62: an edge while the count is not known is counted into the homing travel. -/
def searchEdge (s : State) : State :=
  let n := s.engine.homingTravel + 1
  let s := setEngine { s.engine with homingTravel := n } s
  if s.engine.homing = some .carriageSearch ∧ Config.homingTravelMax < n then faultEvent .homeNotFound s
  else s

/-- ENCODER_EDGE (R61, R62): the levels of the channels after the edge. -/
def execEncoderEdge (a b : Bool) (s : State) : Host.Outcome State Fault Refusal :=
  let oldA := s.engine.channelA
  let oldB := s.engine.channelB
  let t := setEngine { s.engine with channelA := a, channelB := b } s
  if a ≠ oldA ∧ b ≠ oldB then
    .next (if s.engine.state = .unhomed ∨ s.engine.state.isFaulted then t else faultEvent .jamCarriage t)
  else if a = oldA ∧ b = oldB then .next s
  else
    match s.engine.carriage with
    | some c => .next (countEdge (countsUp oldA a b) c t)
    | none => .next (searchEdge t)

/-! ### Homing (R62, R63) -/

/-- INDEX_PULSE (R62): honoured in CARRIAGE-SEARCH alone. -/
def execIndexPulse (s : State) : Host.Outcome State Fault Refusal :=
  if s.engine.homing = some .carriageSearch then
    .next (setEngine { s.engine with
      carriage := some 0, homing := some .carriageReturn,
      homingLimit := some (s.now + carriageLimit 0) } s)
  else .next s

/-- CARRIAGE_SEARCH_LIMIT (R62). -/
def execCarriageSearchLimit (s : State) : Host.Outcome State Fault Refusal :=
  if s.engine.homing = some .carriageSearch then
    .next (faultEvent .jamCarriage (s.reach (s.engine.homingLimit.getD 0)))
  else .next s

/-- HOME_FLAG_FOUND (R63). -/
def execHomeFlagFound (s : State) : Host.Outcome State Fault Refusal :=
  if s.engine.homing = some .wheelSearch then
    .next (setEngine { s.engine with
      wheelPosition := some 0, homing := some .wheelRead,
      homingLimit := some (s.now + Config.wheelLimit) } s)
  else .next s

/-- R63, R43: the code is handed to the Wheel Unit, and the engine stands in IDENTIFYING, from which a
profile that is active takes it on (settle), with one report for the state reached. Code 0 makes two changes of
state, to IDENTIFYING and to FAULTED, and each raises its ENGINE event (R60). WHEEL (UNKNOWN-WHEEL), where the code's
resolution raises it, is raised before ENGINE (IDENTIFYING) (log entry 22). -/
def identify (code : Nat) (s : State) : State :=
  let s := wheelRead code
    (setEngine { s.engine with
      state := .identifying, homing := none, homingLimit := none, wheelPosition := some 0 } s)
  if code = 0 then takeFault .noWheel (engineReport s)
  else if profileMounted s.wheel then s
  else engineReport s

/-- WHEEL_CODE_READ (R63, R43). -/
def execWheelCodeRead (code : BitVec 6) (s : State) : Host.Outcome State Fault Refusal :=
  if s.engine.homing = some .wheelRead then .next (textEvent (identify code.toNat s)) else .next s

/-- WHEEL_PHASE_LIMIT (R63). -/
def execWheelPhaseLimit (s : State) : Host.Outcome State Fault Refusal :=
  if s.engine.homing = some .wheelSearch ∨ s.engine.homing = some .wheelRead then
    .next (faultEvent .jamWheel (s.reach (s.engine.homingLimit.getD 0)))
  else .next s

/-- FEED_MOTION_END (R81, R69). -/
def execFeedMotionEnd (s : State) : Host.Outcome State Fault Refusal :=
  if s.engine.feed.isSome then .next (textEvent (setEngine { s.engine with feed := none } s)) else .next s

/-! ### The sensor inputs (R169, R170) -/

def setInput (which : Sensor) (i : Input) (s : State) : State :=
  { s with sensors := s.sensors.set which i }

/-- RAW_LEVEL_CHANGE (R169). -/
def execRawLevelChange (input : Sensor) (level : Switch) (s : State) : Host.Outcome State Fault Refusal :=
  let i := s.sensors.get input
  let timer :=
    if level = i.debounced then none
    else
      match i.timer with
      | some t => some t
      | none => some (s.now + Config.debounceTime)
  .next (setInput input { i with raw := level, timer := timer } s)

/-- R170: a SENSOR event; the causes are 0 EDGE and 1 SELECTED. -/
def raiseSensor (cause : Nat) (input : Sensor) (s : State) : State :=
  raise .sensor cause
    [byte (sensorCode input), byte (switchCode (s.sensors.get input).debounced)] s

/-- R169: the block that acts on an input is told of its accepted edge. -/
def tellEdge (input : Sensor) (state : Switch) (s : State) : State :=
  match input, state with
  | .cover, .opened => coverOpened s
  | .cover, .closed => coverClosed s
  | .paper, _ | .tape, _ | .ribbon, _ => s

/-- R169: an accepted edge is handed on, and reported if the selection reports it. -/
def acceptEdge (input : Sensor) (s : State) : State :=
  let i := s.sensors.get input
  let s := tellEdge input i.raw (setInput input { i with debounced := i.raw, timer := none } s)
  if i.selection.reports i.raw then raiseSensor 0 input s else s

/-- DEBOUNCE_EXPIRY (R169, R170). -/
def execDebounceExpiry (input : Sensor) (s : State) : Host.Outcome State Fault Refusal :=
  let i := s.sensors.get input
  match i.timer with
  | none => .next s
  | some t =>
    let s := s.reach t
    if i.raw = i.debounced then .next (setInput input { i with timer := none } s)
    else .next (textEvent (acceptEdge input s))

/-! ### The rail and the heat (R88 to R94) -/

/-- R88: the plain band of a reading, in tenths of a volt. -/
def plainBand (r : Nat) : Band :=
  if r < 190 then .critical else if r < 220 then .low else if r ≤ 260 then .nominal else .high

/-- R89: whether a reading leaves a band. -/
def leavesBand (b : Band) (r : Nat) : Bool :=
  match b with
  | .critical => 194 < r
  | .low => r < 186 || 224 < r
  | .nominal => r < 216 || 264 < r
  | .high => r < 256

/-- R88, R89: the band after a reading. -/
def bandAfter (x : Impression) (r : Nat) : Band :=
  if x.firstPending || leavesBand x.band r then plainBand r else x.band

/-- R69, R90, R91: a group start that waits, in CYCLE or in COOLING, is judged again when the effective
speed has changed. -/
def speedChanged (before : Nat) (s : State) : State :=
  if s.effectiveSpeed ≠ before then
    setEngine { s.engine with groupWait := none } s
  else s

/-- R185: the 1-byte field of a rail reading. A reading above 255 has no such byte: a free value (log entry 4). -/
def readingByte (reading : Nat) : Byte := if reading ≤ 255 then byte reading else Config.longReading reading

/-- R89, R80: the band has changed. -/
def bandChanged (before : Band) (speed reading : Nat) (s : State) : State :=
  let s := raise .supply s.impression.band.code
    [byte before.code, readingByte reading, byte s.effectiveSpeed] s
  let s := speedChanged speed s
  if before = .critical ∧ s.engine.state = .paused .supply then resumeEngine s else s

/-- SUPPLY_MEASUREMENT (R88, R89): the operand is the rail voltage found, in tenths of a volt. -/
def execSupplyMeasurement (reading : Nat) (s : State) : Host.Outcome State Fault Refusal :=
  let r := min reading 400
  let x := s.impression
  let s' := s.reach x.measureDue
  let t := { s' with impression :=
    { x with
      band := bandAfter x r, firstPending := false, lastReading := some r,
      measureDue := x.measureDue + Config.measureTime } }
  if bandAfter x r = x.band then .next t
  else .next (textEvent (bandChanged x.band s.effectiveSpeed r t))

/-- R93: the heat after a decay step. -/
def decayed (heat : Nat) : Nat := heat - heat / 16

/-- R94: whether a decay step that leaves this heat clears the cooling latch. -/
def coolingEnds (x : Impression) : Bool := x.coolingLatch && decayed x.heat ≤ Config.coolAt

/-- R93: a decay step. -/
def decayStep (s : State) : State :=
  { s with impression :=
      { s.impression with
        heat := decayed s.impression.heat, decayDue := s.impression.decayDue + Config.decayTime,
        coolingLatch := s.impression.coolingLatch && !coolingEnds s.impression } }

/-- HEAT_DECAY (R93, R94). -/
def execHeatDecay (s : State) : Host.Outcome State Fault Refusal :=
  let t := decayStep (s.reach s.impression.decayDue)
  if coolingEnds s.impression ∧ s.engine.groupWait = some .cooling then
    .next (textEvent (setEngine { t.engine with groupWait := none } t))
  else .next t

/-! ### The display's timers (R148, R149, R152) -/

/-- WORD_BLINK (R148). -/
def execWordBlink (s : State) : Host.Outcome State Fault Refusal :=
  let s := s.reach s.display.wordBlinkDue
  .next (render { s with display :=
    { s.display with
      wordBlinkOn := !s.display.wordBlinkOn
      wordBlinkDue := s.display.wordBlinkDue + Config.wordBlinkTime } })

/-- CURSOR_BLINK (R149). -/
def execCursorBlink (s : State) : Host.Outcome State Fault Refusal :=
  let s := s.reach s.display.cursorBlinkDue
  .next (render { s with display :=
    { s.display with
      cursorBlinkOn := !s.display.cursorBlinkOn
      cursorBlinkDue := s.display.cursorBlinkDue + Config.cursorBlinkTime } })

/-- When the overlay's timer expires. -/
def overlayExpiry (s : State) : Option Time := s.display.overlay.bind (·.expires)

/-- R152: the overlay ends. -/
def endOverlay (s : State) : State := { s with display := { s.display with overlay := none } }

/-- OVERLAY_TIMER (R152). -/
def execOverlayTimer (s : State) : Host.Outcome State Fault Refusal :=
  match overlayExpiry s with
  | none => .next s
  | some t => .next (render (endOverlay (s.reach t)))

/-! ### The sounder's timer (R172) -/

/-- R172: the one-shot ends, and the head of the queue begins to play. -/
def nextShot (now : Time) (x : Sounder) : Sounder :=
  match x.queue with
  | [] => { x with playing := none }
  | o :: rest => { x with playing := some { shot := o, ends := now + o.length }, queue := rest }

/-- ONE_SHOT_END (R172). -/
def execOneShotEnd (s : State) : Host.Outcome State Fault Refusal :=
  match s.sounder.playing with
  | none => .next s
  | some p =>
    let s := s.reach p.ends
    .next { s with sounder := nextShot s.now s.sounder }

end Sys2Proof.Machine
end

