-- ==== Sys2Proof/Machine/TextRequests.lean ====
section
/-!
DEFINITION. The requests that act on the text path and the engine (R2, R16, R22 to R24, R64, R79, R81, R82,
R108, R118, R119, R121): TYPE, RELEASE, STOP, RESUME, HOME, FEED, SET-FORMAT, SET-TABS, SET-WATCH.
A handler takes the body of an accepted frame and answers the state after the owner's work and its answer.
-/

namespace Sys2Proof.Machine

/-- R178: the Link Controller judges the body length of a request with a fixed length. -/
def fixedBody (n : Nat) (handler : List Byte → State → Handled) (body : List Byte) (s : State) : Handled :=
  if body.length = n then handler body s else (s, Status.badValue.alone)

/-- R177, R178: an accepted frame is handed to its owner and answered; a frame complete while 8 replies wait
or while reset pending is set is discarded (R177, R182). -/
def acceptFrame (kind tag : Byte) (handler : List Byte → State → Handled) (body : List Byte) (s : State) :
    State :=
  if discards s then hunt s else reply kind tag (handler body (hunt s))

/-! ### TYPE (R2) -/

def handleType (body : List Byte) (s : State) : Handled :=
  if body.length = 0 ∨ 48 < body.length then (s, Status.badValue.alone)
  else if body.length ≤ keyRoom s then
    let t := judgeHead { s with composer := { s.composer with keyQueue := s.composer.keyQueue ++ body } }
    (t, { status := .ok, data := [byte (keyRoom t)] })
  else (s, { status := .queueFull, data := [byte (keyRoom s)] })

/-! ### RELEASE (R16) -/

/-- The place of a cell in the list. -/
def cellIndex (cells : List Cell) (id : Nat) : Option Nat := cells.findIdx? fun c => c.id == id

/-- R16: whether the mark stands before a place of the list, or nowhere. -/
def markBefore (s : State) (index : Nat) : Bool :=
  match s.line.releaseMark.bind (cellIndex s.line.cells) with
  | none => true
  | some i => i < index

/-- R16: the release of the line on which the carriage stands. -/
def releaseCarriageLine (s : State) : State :=
  match s.line.cells.find? fun c => c.kind == .lineEnd with
  | some e =>
    if markBefore s ((lineEndIndex s.line.cells).getD 0) then releaseTo e.id s else s
  | none =>
    match s.line.cells.getLast? with
    | none => s
    | some c =>
      releaseTo c.id
        { s with line := { s.line with composing := { s.line.composing with releasedFlush := true } } }

def handleRelease (_ : List Byte) (s : State) : Handled := (textEnd (releaseCarriageLine s), .ok)

/-! ### STOP (R24, R82, R108) -/

/-- R24: what becomes of a cell; `removed` are the cells of the groups that leave the strike queue. -/
def stopCell (removed : List Nat) (c : Cell) : Cell :=
  match c.state with
  | .pending => { c with state := .held }
  | .ordered => if removed.contains c.id then { c with state := .held } else c
  | .lifting => if removed.contains c.id then { c with state := .struck } else c
  | .held | .struck => c

/-- The cells that some orders name. -/
def orderCells (orders : List Order) : List Nat := orders.map (·.cell)

/-- R24, R82, R108, R121: what STOP changes. -/
def stopAll (s : State) : State :=
  let kept := if s.engine.groupStarted then headGroup s.strikeQueue else []
  let removed := (orderCells s.strikeQueue).filter fun id => !(orderCells kept).contains id
  let s := stopQueue s
  { s with
    composer := { s.composer with
      keyQueue := [], waits := .clear, bold := false, underline := false, marginRelease := false }
    line := { s.line with cells := s.line.cells.map (stopCell removed), releaseMark := none }
    correction := { deferred := none, waiting := [] }
    zone := { s.zone with holdPass := false, holdNoted := false } }

def handleStop (_ : List Byte) (s : State) : Handled := (textEnd (stopAll s), .ok)

/-! ### RESUME (R79, R121) -/

/-- R79: whether RESUME ends a paper pause. -/
def endsPaperPause (s : State) : Bool :=
  s.engine.state == .paused .paper && !s.sensors.isOpen .paper

/-- R121: whether RESUME grants the hold pass to the head item. -/
def grantsPass (s : State) : Bool :=
  match s.composer.keyQueue with
  | [] => false
  | code :: _ => (holdingWatch s code).isSome

/-- R121: the pass is granted, and the item is taken when no other wait condition stands. -/
def passHeld (s : State) : State :=
  let s := { s with zone := { s.zone with holdPass := true } }
  match s.composer.keyQueue with
  | [] => s
  | code :: rest =>
    if (waitsFor s code).any then s
    else
      let take := if isSpaceCode code then takeSpace else takeGlyph
      rearmAfter s.composer.printPoint (take code (takeHead rest s))

def handleResume (_ : List Byte) (s : State) : Handled :=
  let pause := endsPaperPause s
  let pass := grantsPass s
  if pause ∨ pass then
    let t := if pause then resumeEngine s else s
    (textEnd (if pass then passHeld t else t), .ok)
  else (s, Status.notReady.alone)

/-! ### HOME (R64) -/

/-- R64: what HOME is answered with the cover closed. PAUSED (COVER) with the cover closed is never left
standing (R78). -/
def homeAnswer : EngineState → Status
  | .unhomed | .running | .paused .cover => .notReady
  | .homing => .ok
  | .identifying | .ready | .paused .paper | .paused .supply | .faulted _ => .accepted

def handleHome (_ : List Byte) (s : State) : Handled :=
  if s.sensors.isOpen .cover then (s, Status.notReady.alone)
  else
    match homeAnswer s.engine.state with
    | .accepted => (render (beginHoming s), Status.accepted.alone)
    | other => (s, other.alone)

/-! ### FEED (R81) -/

/-- R81: whether FEED is accepted once no feed motion is in progress. -/
def feedReady (s : State) : Bool :=
  s.engine.state == .ready && !s.line.cells.any fun c => c.state == .pending || c.state == .ordered

/-- R81: the clamped platen units of a signed byte. -/
def feedUnits (b : Byte) : Int := clampInt (-96) 96 b.toInt

/-- R9, R81: the STRUCK cells of the line on which the carriage stands. -/
def struckOfLine (cells : List Cell) : List Nat :=
  ((if hasLineEnd cells then endedCells cells else cells).filter fun c => c.state == .struck).map (·.id)

/-- R81: FEED accepted. -/
def beginFeed (units : Int) (s : State) : State :=
  let gone := struckOfLine s.line.cells
  let s := raise .line 1 [BitVec.ofInt 8 units] (removeCells false (fun c => gone.contains c.id) s)
  setEngine { s.engine with feed := if units = 0 then none else some units } s

def handleFeed (body : List Byte) (s : State) : Handled :=
  if s.engine.feed.isSome then (s, Status.busy.alone)
  else if feedReady s then (textEnd (beginFeed (feedUnits (body.getD 0 0)) s), .ok)
  else (s, Status.notReady.alone)

/-! ### SET-FORMAT (R22, R23) -/

/-- The format fields of a request after clamping (R22). -/
structure FormatRequest where
  present : Nat
  pitch : Option Pitch
  left : Nat
  right : Nat
  spacing : Option Nat
  alignment : Option Alignment
  mode : Option ComposingMode
  wrap : Option Bool
  spelling : Option SpellingMode
  impression : Int
  speed : Nat
  bellZone : Nat
  deriving DecidableEq, Repr

/-- R22, R185: the body read, and the fields clamped that are clamped. -/
def FormatRequest.ofBody (b : List Byte) : FormatRequest :=
  { present := at16 b 0, pitch := Pitch.ofCode (at8 b 2), left := at16 b 3, right := min (at16 b 5) 1800,
    spacing := spacingOfCode (at8 b 7), alignment := Alignment.ofCode (at8 b 8),
    mode := ComposingMode.ofCode (at8 b 9), wrap := boolOfCode (at8 b 10),
    spelling := SpellingMode.ofCode (at8 b 11), impression := clampInt (-2) 2 (b.getD 12 0).toInt,
    speed := clampNat 1 4 (at8 b 13), bellZone := min (at8 b 14) 120 }

/-- Whether field `n` is marked present. -/
def FormatRequest.has (r : FormatRequest) (n : Nat) : Bool := r.present.testBit n

/-- R22: the margins that would stand: a present new one in place of the current one. -/
def FormatRequest.newLeft (r : FormatRequest) (f : Format) : Nat := if r.has 1 then r.left else f.leftMargin

def FormatRequest.newRight (r : FormatRequest) (f : Format) : Nat :=
  if r.has 2 then r.right else f.rightMargin

/-- R22: whether a present field lies outside its field's set. -/
def outside (present : Bool) {α : Type} (value : Option α) : Bool := present && value.isNone

/-- R22: whether the margins that would stand are less than 120 apart. -/
def marginsClose (r : FormatRequest) (f : Format) : Bool := r.newRight f < r.newLeft f + 120

/-- R22: the checks in the order of the fields; the first that fails gives the reply. A present field whose
value is the current one passes. -/
def FormatRequest.refusal (r : FormatRequest) (s : State) : Option Status :=
  let f := s.composer.format
  let lineOpen := composingCells s.line.cells != []
  if 2048 ≤ r.present then some .badValue
  else if outside (r.has 0) r.pitch then some .badValue
  else if r.has 0 && r.pitch != some f.pitch && lineOpen then some .lineOpen
  else if r.has 1 && r.left != f.leftMargin && marginsClose r f then some .badValue
  else if r.has 2 && r.right != f.rightMargin &&
      (marginsClose r f || (lineOpen && r.right < s.composer.printPoint)) then some .badValue
  else if outside (r.has 3) r.spacing || outside (r.has 4) r.alignment || outside (r.has 5) r.mode then
    some .badValue
  else if r.has 5 && r.mode != some f.mode && s.line.cells.any Cell.isHeld then some .heldText
  else if outside (r.has 6) r.wrap || outside (r.has 7) r.spelling then some .badValue
  else none

/-- A field as it stands after the request. -/
def FormatRequest.take (r : FormatRequest) {α : Type} (n : Nat) (new : Option α) (old : α) : α :=
  if r.has n then new.getD old else old

/-- R22: the format record with every present field changed. -/
def FormatRequest.apply (r : FormatRequest) (f : Format) : Format :=
  { pitch := r.take 0 r.pitch f.pitch, leftMargin := r.newLeft f, rightMargin := r.newRight f,
    spacing := r.take 3 r.spacing f.spacing, alignment := r.take 4 r.alignment f.alignment,
    mode := r.take 5 r.mode f.mode, wrap := r.take 6 r.wrap f.wrap,
    spelling := r.take 7 r.spelling f.spelling, impression := r.take 8 (some r.impression) f.impression,
    speed := r.take 9 (some r.speed) f.speed, bellZone := r.take 10 (some r.bellZone) f.bellZone }

/-- R117: the bell is armed again after an accepted change of the right margin or the bell zone width. -/
def rearmZone (before : Format) (s : State) : State :=
  if before.rightMargin ≠ s.composer.format.rightMargin ∨ before.bellZone ≠ s.composer.format.bellZone then
    rearmBell s
  else s

/-- R23: the changed record reaches the other blocks. -/
def changeFormat (f : Format) (s : State) : State :=
  let before := s.composer.format
  let speed := s.effectiveSpeed
  let p := s.composer.printPoint
  let s := relatchLeft before.leftMargin { s with composer := { s.composer with format := f } }
  let s := spellingModeChanged before.spelling f.spelling s
  let s := if before.spelling = f.spelling then s else releaseAdvance s
  speedChanged speed (rearmZone before (rearmAfter p s))

def handleSetFormat (body : List Byte) (s : State) : Handled :=
  let r := FormatRequest.ofBody body
  match r.refusal s with
  | some x => (s, x.alone)
  | none => (textEnd (changeFormat (r.apply s.composer.format) s), .ok)

/-! ### SET-TABS (R118) -/

/-- R118: the stops held after ADD. -/
def addTabs (new old : List Nat) : List Nat := new.foldl (fun l p => insertPosition p l) old

/-- R118: the list of a request, when it is one that ADD and REMOVE take. The positions stand without a count
before them, as the body column of R178 has them (DESIGN CHOICE, log entry 9). -/
def tabList (body : List Byte) : Option (List Nat) :=
  (positions body).filter fun l => l != [] && l.length ≤ Config.tabsMax && l.all (· ≤ Config.carriageEnd)

/-- R118: the reply's stops, a count before them (R185). -/
def tabData (stops : List Nat) : List Byte := byte stops.length :: stops.flatMap be16

def setTabStops (stops : List Nat) (s : State) : Handled :=
  ({ s with zone := { s.zone with tabStops := stops } }, { status := .ok, data := tabData stops })

/-- R118: SET-TABS. A body without an operation byte, and an ADD or REMOVE with a byte left over after its whole
positions, are answered BAD-VALUE (DESIGN CHOICE, log entry 17). -/
def handleSetTabs (body : List Byte) (s : State) : Handled :=
  let stops := s.zone.tabStops
  match body with
  | [] => (s, Status.badValue.alone)
  | op :: rest =>
    if op.toNat = 2 then setTabStops [] s
    else
      match tabList rest with
      | none => (s, Status.badValue.alone)
      | some l =>
        if op.toNat = 0 then
          if Config.tabsMax < (addTabs l stops).length then (s, Status.full.alone)
          else setTabStops (addTabs l stops) s
        else if op.toNat = 1 then setTabStops (stops.filter fun p => !l.contains p) s
        else (s, Status.badValue.alone)

/-! ### SET-WATCH (R119) -/

/-- R119: one watch replaced. -/
def setWatchOf (number : Nat) (w : Watch) (z : ZoneMonitor) : ZoneMonitor :=
  if number = 1 then { z with watch1 := w } else { z with watch2 := w }

def handleSetWatch (body : List Byte) (s : State) : Handled :=
  let number := at8 body 0
  match Watch.ofFields (at16 body 1) (at8 body 3) (at8 body 4) (at8 body 5) with
  | none => (s, Status.badValue.alone)
  | some w =>
    if number = 1 ∨ number = 2 then
      (judgeHead { s with zone := setWatchOf number w s.zone }, { status := .ok, data := w.bytes })
    else (s, Status.badValue.alone)

/-! ### The commands -/

/-- TYPE (R2). -/
def execType (tag : Byte) (body : List Byte) (s : State) : Host.Outcome State Fault Refusal :=
  .next (acceptFrame 0x01 tag handleType body s)

/-- RELEASE (R16). -/
def execRelease (tag : Byte) (body : List Byte) (s : State) : Host.Outcome State Fault Refusal :=
  .next (acceptFrame 0x02 tag (fixedBody 0 handleRelease) body s)

/-- STOP (R24). -/
def execStop (tag : Byte) (body : List Byte) (s : State) : Host.Outcome State Fault Refusal :=
  .next (acceptFrame 0x03 tag (fixedBody 0 handleStop) body s)

/-- RESUME (R79, R121). -/
def execResume (tag : Byte) (body : List Byte) (s : State) : Host.Outcome State Fault Refusal :=
  .next (acceptFrame 0x04 tag (fixedBody 0 handleResume) body s)

/-- HOME (R64). -/
def execHome (tag : Byte) (body : List Byte) (s : State) : Host.Outcome State Fault Refusal :=
  .next (acceptFrame 0x05 tag (fixedBody 0 handleHome) body s)

/-- FEED (R81). -/
def execFeed (tag : Byte) (body : List Byte) (s : State) : Host.Outcome State Fault Refusal :=
  .next (acceptFrame 0x06 tag (fixedBody 1 handleFeed) body s)

/-- SET_FORMAT (R22). -/
def execSetFormat (tag : Byte) (body : List Byte) (s : State) : Host.Outcome State Fault Refusal :=
  .next (acceptFrame 0x10 tag (fixedBody 15 handleSetFormat) body s)

/-- SET_TABS (R118). -/
def execSetTabs (tag : Byte) (body : List Byte) (s : State) : Host.Outcome State Fault Refusal :=
  .next (acceptFrame 0x11 tag handleSetTabs body s)

/-- SET_WATCH (R119). -/
def execSetWatch (tag : Byte) (body : List Byte) (s : State) : Host.Outcome State Fault Refusal :=
  .next (acceptFrame 0x12 tag (fixedBody 6 handleSetWatch) body s)

end Sys2Proof.Machine
end

