-- ==== Sys2Proof/Machine/PanelRequests.lean ====
section
/-!
DEFINITION. The requests of the report mask, the sounder, the sensor inputs, the display and the queries
(R57, R141, R151, R153, R170, R172, R173, R178, R180, R184).
-/

namespace Sys2Proof.Machine

/-! ### SET-REPORTS (R180) -/

def handleSetReports (body : List Byte) (s : State) : Handled :=
  let mask := at16 body 0
  if 2048 ≤ mask then (s, Status.badValue.alone)
  else (setLink (applyMask (BitVec.ofNat 16 mask) s.link) s, { status := .ok, data := be16 mask })

/-! ### SET-SOUND (R173) -/

/-- R173: a frequency clamped and rounded down to a multiple of 100. -/
def toneFrequency (f : Nat) : Nat := clampNat 400 4000 f / 100 * 100

/-- R173: what is playing is cut, and the queue is emptied. -/
def cutShots (x : Sounder) : Sounder := { x with playing := none, queue := [] }

/-- R173: the four values as the present fields leave them. The presence bits 4 to 7 name no field and are ignored
(DESIGN CHOICE, log entry 33). -/
def soundFields (body : List Byte) (x : Sounder) : Sounder :=
  let has (n : Nat) : Bool := (at8 body 0).testBit n
  { x with
    volume := if has 0 then min (at8 body 1) 3 else x.volume
    bellEnable := if has 1 then (boolOfCode (at8 body 2)).getD x.bellEnable else x.bellEnable
    tone := if has 2 then (boolOfCode (at8 body 3)).getD x.tone else x.tone
    frequency := if has 3 then toneFrequency (at16 body 4) else x.frequency }

/-- R173: the tone's change from off to on, and the volume's change to 0, cut the one-shots. -/
def changeSound (body : List Byte) (x : Sounder) : Sounder :=
  let y := soundFields body x
  if (y.tone && !x.tone) || (y.volume == 0 && x.volume != 0) then cutShots y else y

/-- R173: a bell-enable or tone value other than on or off, judged of a present field alone: a byte whose presence
bit is clear is no value (DESIGN CHOICE, log entry 33). -/
def soundRefused (body : List Byte) : Bool :=
  ((at8 body 0).testBit 1 && (boolOfCode (at8 body 2)).isNone) ||
    ((at8 body 0).testBit 2 && (boolOfCode (at8 body 3)).isNone)

def soundData (x : Sounder) : List Byte :=
  [byte x.volume, byte (boolCode x.bellEnable), byte (boolCode x.tone)] ++ be16 x.frequency

def handleSetSound (body : List Byte) (s : State) : Handled :=
  if soundRefused body then (s, Status.badValue.alone)
  else
    ({ s with sounder := changeSound body s.sounder },
      { status := .ok, data := soundData (changeSound body s.sounder) })

/-! ### SET-SENSORS (R170) -/

/-- R170: a selection byte is taken for an input, and the input's state is reported if the new selection
reports it. -/
def selectEdges (input : Sensor) (b : Byte) (s : State) : State :=
  match EdgeSelection.ofCode b.toNat with
  | none => s
  | some e =>
    let i := s.sensors.get input
    let s := setInput input { i with selection := e } s
    if e.reports i.debounced then raiseSensor 1 input s else s

/-- R170: a present selection outside the four values. -/
def selectionRefused (b : Byte) : Bool := b.toNat != 0xFF && (EdgeSelection.ofCode b.toNat).isNone

/-- R170: the selections are taken in the order of the body, COVER, PAPER, TAPE, RIBBON, and their SENSOR events are
raised in that order (DESIGN CHOICE, log entry 33: the rule gives the events none). -/
def selectAll (body : List Byte) (s : State) : State :=
  selectEdges .ribbon (body.getD 3 0) (selectEdges .tape (body.getD 2 0)
    (selectEdges .paper (body.getD 1 0) (selectEdges .cover (body.getD 0 0) s)))

def sensorSelections (x : Sensors) : List Byte :=
  [x.cover, x.paper, x.tape, x.ribbon].map fun i => byte i.selection.code

def handleSetSensors (body : List Byte) (s : State) : Handled :=
  if body.any selectionRefused then (s, Status.badValue.alone)
  else
    let t := selectAll body s
    (t, { status := .ok, data := sensorSelections t.sensors ++ sensorStates t.sensors })

/-! ### SOUND (R172) -/

/-- R172: the outcome and, for DROPPED, its cause (0 TONE, 1 MUTED, 2 BELL-OFF, 3 FULL). -/
def SoundOutcome.data : SoundOutcome → List Byte
  | .playing => [0, 0xFF] | .queued => [1, 0xFF]
  | .droppedTone => [2, 0] | .droppedMuted => [2, 1] | .droppedBellOff => [2, 2] | .droppedFull => [2, 3]

def handleSound (body : List Byte) (s : State) : Handled :=
  match OneShot.ofCode (at8 body 0) with
  | none => (s, Status.badValue.alone)
  | some o => (askSound o s, { status := .ok, data := (oneShotOutcome s.sounder o).data })

/-! ### GET-STATUS (R184) -/

/-- R185: the sensor byte: a bit set for OPEN. -/
def sensorBits (x : Sensors) : Nat :=
  boolCode (x.isOpen .cover) + 2 * boolCode (x.isOpen .paper) + 4 * boolCode (x.isOpen .tape) +
    8 * boolCode (x.isOpen .ribbon)

/-- R184, R185: bytes 1 to 17 of the reply. -/
def statusData (s : State) : List Byte :=
  [byte s.engine.state.code, byte s.engine.state.reasonCode, byte (keyRoom s), byte s.line.cells.length,
      byte s.strikeQueue.length] ++
    be16 s.composer.printPoint ++ carriageBytes s.engine.carriage ++ [byte s.impression.band.code] ++
    be16 (min s.impression.heat 65535) ++
    [byte s.spelling.unit.code, byte s.memory.state.code, byte s.memory.protect,
      byte (sensorBits s.sensors), byte (activeCode s)]

def handleGetStatus (_ : List Byte) (s : State) : Handled := (s, { status := .ok, data := statusData s })

/-! ### GET-LINE (R178) -/

def Cell.attributeBits (c : Cell) : Nat :=
  boolCode c.bold + 2 * boolCode c.underline + 4 * boolCode c.pastMargin

def Cell.flagBits (c : Cell) : Nat := boolCode c.underlineDropped + 2 * boolCode c.unprintable

/-- R178: a cell in a GET-LINE reply. -/
def Cell.bytes (c : Cell) : List Byte :=
  [byte c.id, byte c.kind.code, c.glyph.getD 0xFF] ++ be16 c.start ++ be16 c.advance ++
    [byte c.state.code, byte c.attributeBits, byte c.flagBits, optByte c.word, byte c.strikes.length]

/-- R178: the reply's data, with up to four cells from an index on. -/
def lineData (s : State) (first : Nat) : List Byte :=
  let cells := s.line.cells
  [byte cells.length, byte s.display.windowStart, byte s.display.cursorColumn] ++
    be16 s.composer.printPoint ++
    [optByte (s.line.releaseMark.bind (cellIndex cells)), optByte (lineEndIndex cells)] ++
    ((cells.drop first).take 4).flatMap Cell.bytes

def handleGetLine (body : List Byte) (s : State) : Handled :=
  let first := at8 body 0
  if s.line.cells.length < first then (s, Status.badValue.alone)
  else (s, { status := .ok, data := lineData s first })

/-! ### GET-WORD (R141) -/

/-- R141: the word whose first cell stands earliest in the list, of the UNKNOWN words not accepted. -/
def oldestUnknown (s : State) : Option Word :=
  s.line.cells.findSome? fun c => (unknownWords s.spelling.words).find? fun w => w.first == c.id

/-- R126, R185: the fields of a word record. The hold mark and the accepted flag are sent as 1 for set and 0 for clear,
as an on or off value is: R126 gives each as "Set or clear", whose places would be 0 for set (DESIGN CHOICE, log entry
9). -/
def Word.bytes (w : Word) : List Byte :=
  [byte w.id, byte w.first, byte w.last, byte w.count] ++ be16 w.hash ++
    [byte w.state.code, optByte (w.skip.map SkipReason.code), byte w.generation, byte (boolCode w.holdMark),
      byte (boolCode w.accepted)]

/-- The number of used entries of the user-word index. -/
def usedSlots (index : List (Option Nat)) : Nat := (index.filter Option.isSome).length

/-- R141, R178: the reply's data about a word; its first 32 glyph codes. -/
def wordData (s : State) (w : Word) : List Byte :=
  let codes := ((wordCells s.line.cells w.id).take 32).map fun c => c.glyph.getD 0
  w.bytes ++ [byte codes.length] ++ codes ++
    [byte s.spelling.unit.code, byte s.spelling.status.code, byte s.spelling.checkQueue.length,
      byte s.spelling.ignoreList.length] ++ be16 (usedSlots s.spelling.userIndex)

/-- R141: the word that a GET-WORD body chooses. -/
def chosenWord (body : List Byte) (s : State) : Option Word :=
  match body with
  | [] => oldestUnknown s
  | id :: _ => findWord s.spelling.words id.toNat

def handleGetWord (body : List Byte) (s : State) : Handled :=
  if 1 < body.length then (s, Status.badValue.alone)
  else
    match chosenWord body s with
    | none => (s, Status.notFound.alone)
    | some w => (s, { status := .ok, data := wordData s w })

/-! ### GET-FORMAT (R21) and GET-WHEEL (R57) -/

def handleGetFormat (_ : List Byte) (s : State) : Handled :=
  (s, { status := .ok, data := s.composer.format.bytes })

/-- R57: the active profile's header, and its petal entries from a petal on, a count before them. -/
def profileData (p : Option Profile) (first : Nat) : List Byte :=
  match p with
  | none => [0, 0, 0, 0xFF, 0]
  | some p =>
    let entries := (p.petals.drop first).take 14
    [byte p.code, byte p.pitch.code, byte p.spaceWidth, optByte p.underscore, byte entries.length] ++
      entries.flatMap PetalEntry.bytes

/-- The code in a cache slot; 0 for an empty one. -/
def cacheCode (w : WheelUnit) (slot : Nat) : Nat := (((w.cache[slot]?).join).map (·.code)).getD 0

def wheelData (w : WheelUnit) (first : Nat) : List Byte :=
  [byte w.mounted, byte w.resolution.code, byte w.directoryState.code, byte (cacheCode w 0),
      byte (cacheCode w 1), byte w.staging.state.code, byte w.composites.length] ++
    profileData (activeProfile w) first

def handleGetWheel (body : List Byte) (s : State) : Handled :=
  if 95 < at8 body 0 then (s, Status.badValue.alone)
  else (s, { status := .ok, data := wheelData s.wheel (at8 body 0) })

/-! ### The display (R151, R153) -/

/-- R151: a message shown; a duration of 0 is no timer. -/
def showMessage (duration : Nat) (codes : List Byte) (s : State) : State :=
  { s with display := { s.display with
      overlay := some
        { codes := codes, expires := if duration = 0 then none else some (s.now + duration * 1000) } } }

/-- R151: SHOW-MESSAGE. A body without a duration byte is answered BAD-VALUE (DESIGN CHOICE, log entry 17). -/
def handleShowMessage (body : List Byte) (s : State) : Handled :=
  match body with
  | [] => (s, Status.badValue.alone)
  | duration :: codes =>
    if codes.length ≤ Config.textColumns ∧ codes.all isShownCode then
      (render (showMessage duration.toNat codes s), .ok)
    else (s, Status.badValue.alone)

def handleClearMessage (_ : List Byte) (s : State) : Handled :=
  if s.display.overlay = none then (s, .ok) else (render (endOverlay s), .ok)

def handleSetContrast (body : List Byte) (s : State) : Handled :=
  let value := min (at8 body 0) 15
  ({ s with display := { s.display with contrast := value } }, { status := .ok, data := [byte value] })

/-! ### The commands -/

/-- SET_REPORTS (R180). -/
def execSetReports (tag : Byte) (body : List Byte) (s : State) : Host.Outcome State Fault Refusal :=
  .next (acceptFrame 0x13 tag (fixedBody 2 handleSetReports) body s)

/-- SET_SOUND (R173). -/
def execSetSound (tag : Byte) (body : List Byte) (s : State) : Host.Outcome State Fault Refusal :=
  .next (acceptFrame 0x14 tag (fixedBody 6 handleSetSound) body s)

/-- SET_SENSORS (R170). -/
def execSetSensors (tag : Byte) (body : List Byte) (s : State) : Host.Outcome State Fault Refusal :=
  .next (acceptFrame 0x15 tag (fixedBody 4 handleSetSensors) body s)

/-- SOUND (R172). -/
def execSound (tag : Byte) (body : List Byte) (s : State) : Host.Outcome State Fault Refusal :=
  .next (acceptFrame 0x16 tag (fixedBody 1 handleSound) body s)

/-- GET_STATUS (R184). -/
def execGetStatus (tag : Byte) (body : List Byte) (s : State) : Host.Outcome State Fault Refusal :=
  .next (acceptFrame 0x20 tag (fixedBody 0 handleGetStatus) body s)

/-- GET_LINE (R178). -/
def execGetLine (tag : Byte) (body : List Byte) (s : State) : Host.Outcome State Fault Refusal :=
  .next (acceptFrame 0x21 tag (fixedBody 1 handleGetLine) body s)

/-- GET_WORD (R141). -/
def execGetWord (tag : Byte) (body : List Byte) (s : State) : Host.Outcome State Fault Refusal :=
  .next (acceptFrame 0x22 tag handleGetWord body s)

/-- GET_FORMAT (R21). -/
def execGetFormat (tag : Byte) (body : List Byte) (s : State) : Host.Outcome State Fault Refusal :=
  .next (acceptFrame 0x23 tag (fixedBody 0 handleGetFormat) body s)

/-- GET_WHEEL (R57). -/
def execGetWheel (tag : Byte) (body : List Byte) (s : State) : Host.Outcome State Fault Refusal :=
  .next (acceptFrame 0x24 tag (fixedBody 1 handleGetWheel) body s)

/-- SHOW_MESSAGE (R151). -/
def execShowMessage (tag : Byte) (body : List Byte) (s : State) : Host.Outcome State Fault Refusal :=
  .next (acceptFrame 0x30 tag handleShowMessage body s)

/-- CLEAR_MESSAGE (R151). -/
def execClearMessage (tag : Byte) (body : List Byte) (s : State) : Host.Outcome State Fault Refusal :=
  .next (acceptFrame 0x31 tag (fixedBody 0 handleClearMessage) body s)

/-- SET_CONTRAST (R153). -/
def execSetContrast (tag : Byte) (body : List Byte) (s : State) : Host.Outcome State Fault Refusal :=
  .next (acceptFrame 0x32 tag (fixedBody 1 handleSetContrast) body s)

end Sys2Proof.Machine
end

