-- ==== Sys2Proof/Machine/StoreRequests.lean ====
section
/-!
DEFINITION. The requests of words, wheels and the serial memory (R49 to R52, R54, R135, R138, R139, R160 to
R164, R166).
-/

namespace Sys2Proof.Machine

/-! ### Words (R135, R138, R139) -/

/-- R135, R136: the word's letters are entered in the ignore list, unless a user-word index entry holds an
equal hash; a word of more than 24 letters cannot be an entry (R136; log entry 13). -/
def enterSession (letters : List Nat) (s : State) : State :=
  let e : IgnoreEntry := { letters := letters, hash := wordHash letters }
  if s.spelling.userIndex.contains (some e.hash) ∨ 24 < letters.length then s
  else setSpelling { s.spelling with ignoreList := enterIgnored e s.spelling.ignoreList } s

/-- R135: the glyph codes of a word, from which PERMANENT begins its ADD-WORD. -/
def wordCodes (s : State) (id : Nat) : List Byte :=
  (wordCells s.line.cells id).map fun c => c.glyph.getD 0

/-- R135: the accepted flag is set and the release advance runs. -/
def markAccepted (id : Nat) (s : State) : State :=
  releaseAdvance (modifyWord id (fun w => { w with accepted := true }) s)

/-- R135: the scopes: 0 ONCE, 1 SESSION, 2 PERMANENT. PERMANENT runs all of ADD-WORD's checks: a word that a removal
left with an apostrophe at its edge is refused BAD-VALUE there by R138, a code R135's own list does not name
(DESIGN CHOICE, log entry 13). -/
def acceptWord (id scope : Nat) (s : State) : Handled :=
  let letters := wordLetters s.line.cells id
  let codes := wordCodes s id
  let t := markAccepted id s
  match scope with
  | 0 => (textEnd t, .ok)
  | 1 => (textEnd (enterSession letters t), .ok)
  | _ =>
    let (u, status) := addWord codes t
    (textEnd u, status.alone)

def handleAcceptWord (body : List Byte) (s : State) : Handled :=
  let scope := at8 body 1
  match findWord s.spelling.words (at8 body 0) with
  | none => (s, Status.notFound.alone)
  | some w =>
    if w.state = .opened then (s, Status.notReady.alone)
    else if 2 < scope then (s, Status.badValue.alone)
    else if scope = 1 ∧ s.spelling.unit = .starting then (s, Status.notReady.alone)
    else acceptWord w.id scope s

def handleAddWord (body : List Byte) (s : State) : Handled :=
  let (t, status) := addWord body s
  (grant t, status.alone)

def handleRemoveWord (body : List Byte) (s : State) : Handled :=
  let (t, status) := removeWord body s
  (grant t, status.alone)

/-! ### The staging buffer (R49, R50) -/

/-- R49: the header of a BEGIN, when each value lies within R44: an opened staging with nothing staged. -/
def stagingOf (body : List Byte) : Option Staging := do
  let pitch ← Pitch.ofCode (at8 body 1)
  let underscore ← underscoreOfByte (body.getD 3 0)
  if headerAllowed (at8 body 0) (at8 body 2) then
    some { state := .opened, code := at8 body 0, pitch := pitch, spaceWidth := at8 body 2,
           underscore := underscore, petals := List.replicate 96 none }
  else none

def setStaging (g : Staging) (s : State) : State := setWheel { s.wheel with staging := g } s

def handleLoadWheelBegin (body : List Byte) (s : State) : Handled :=
  if s.wheel.staging.state = .storing then (s, Status.busy.alone)
  else
    match stagingOf body with
    | none => (s, Status.badValue.alone)
    | some g => (setStaging g s, .ok)

/-- R50: entries written from a petal on, each marked staged. -/
def stagePetals : Nat → List PetalEntry → List (Option PetalEntry) → List (Option PetalEntry)
  | _, [], petals => petals
  | f, p :: ps, petals => stagePetals (f + 1) ps (petals.set f (some p))

/-- R50: the entries of a record, when the record is one that is taken. -/
def petalRecord : List Byte → Option (Nat × List PetalEntry)
  | [] => none
  | f :: rest =>
    match petalEntries rest with
    | none => none
    | some ps => if 1 ≤ ps.length ∧ ps.length ≤ 16 ∧ f.toNat + ps.length ≤ 96 then some (f.toNat, ps) else none

def handleLoadWheelPetals (body : List Byte) (s : State) : Handled :=
  match s.wheel.staging.state with
  | .empty => (s, Status.notOpen.alone)
  | .storing => (s, Status.busy.alone)
  | .opened =>
    match petalRecord body with
    | none => (s, Status.badValue.alone)
    | some (f, ps) =>
      (setStaging { s.wheel.staging with petals := stagePetals f ps s.wheel.staging.petals } s, .ok)

/-! ### LOAD-WHEEL-END (R51, R52) -/

/-- R51: whether the staged record is complete and its underscore petal is allowed. -/
def stagingComplete (g : Staging) : Bool :=
  g.petals.all Option.isSome && underscoreAllowed (g.petals.filterMap id) g.underscore

/-- R52: the checks of the store option, in their order. -/
def storeRefusal (s : State) : Option Status :=
  if s.memory.state = .absent then some .noMemory
  else if s.memory.state = .detecting then some .notReady
  else if 2 ≤ s.memory.protect then some .isProtected
  else if s.wheel.directoryState = .loading then some .notReady
  else if (storeSlot s.wheel s.wheel.staging.code).isNone then some .full
  else none

/-- R51: what END is refused with. -/
def endRefusal (option : Nat) (s : State) : Option Status :=
  if 1 < option then some .badValue
  else
    match s.wheel.staging.state with
    | .empty => some .notOpen
    | .storing => some .busy
    | .opened =>
      if stagingComplete s.wheel.staging = false then some .badValue
      else if option = 1 then storeRefusal s
      else none

/-- R45, R51: the staged record is placed in the cache, and becomes active when its wheel is mounted. -/
def placeStaged (s : State) : State :=
  let p := s.wheel.staging.profile
  let s := if s.wheel.fetch.any fun f => f.code == p.code then abandonFetch s else s
  let slot := chooseSlot s.wheel p.code
  let s := setWheel (placeProfile p s.wheel) s
  if p.code = s.wheel.mounted then raiseActive 2 (setWheel (activate slot s.wheel) s) else s

/-- R52: the store begins in a slot. -/
def beginStore (slot : Nat) (s : State) : State :=
  askMemory .store (storeAccess slot 0 s.wheel.staging)
    (setWheel
      { s.wheel with
        store := some { slot := slot, done := 0 }
        staging := { s.wheel.staging with state := .storing } } s)

def handleLoadWheelEnd (body : List Byte) (s : State) : Handled :=
  let option := at8 body 0
  match endRefusal option s with
  | some r => (s, r.alone)
  | none =>
    let t := placeStaged s
    if option = 1 then
      (textEnd (beginStore ((storeSlot t.wheel t.wheel.staging.code).getD 0) t), Status.accepted.alone)
    else (textEnd (setStaging { t.wheel.staging with state := .empty } t), .ok)

/-! ### SET-COMPOSITE (R54) -/

def setComposites (l : List Composite) (s : State) : State := setWheel { s.wheel with composites := l } s

/-- R54: an entry replaced in its place, or added at the end. The rule gives the entries no order, and SAVE-SETTINGS
writes them in this one (DESIGN CHOICE, log entry 34). -/
def putComposite (c : Composite) (l : List Composite) : List Composite :=
  if l.any fun e => e.code == c.code then l.map fun e => if e.code = c.code then c else e else l ++ [c]

/-- R54: SET-COMPOSITE. R3, R120: a change of the table reaches the placement of items, so the Composer judges its
head item again. -/
def handleSetComposite (body : List Byte) (s : State) : Handled :=
  let c : Composite := { code := body.getD 0 0, base := body.getD 1 0, accent := body.getD 2 0 }
  let l := s.wheel.composites
  if c.base = 0 ∧ c.accent = 0 then
    if isGlyphCode c.code then (judgeHead (setComposites (l.filter fun e => e.code != c.code) s), .ok)
    else (s, Status.badValue.alone)
  else if c.allowed = false then (s, Status.badValue.alone)
  else if (l.any fun e => e.code == c.code) = false ∧ Config.compositesMax ≤ l.length then
    (s, Status.full.alone)
  else (judgeHead (setComposites (putComposite c l) s), .ok)

/-! ### Settings and protection (R160, R161, R166) -/

/-- R166: the saved fields as they stand. -/
def currentSettings (s : State) : Settings :=
  { format := s.composer.format, tabStops := s.zone.tabStops, watch1 := s.zone.watch1,
    watch2 := s.zone.watch2, composites := s.wheel.composites, contrast := s.display.contrast,
    volume := s.sounder.volume, mask := s.link.mask }

/-- R166: the save begins with its image. -/
def beginSave (s : State) : State :=
  let x : SettingsSave := { image := (currentSettings s).image, done := 0 }
  grant (askMemory .settings (saveAccess x 0) (setMemory { s.memory with save := some x } s))

def handleSaveSettings (_ : List Byte) (s : State) : Handled :=
  if s.memory.state = .absent then (s, Status.noMemory.alone)
  else if s.memory.state = .detecting then (s, Status.notReady.alone)
  else if s.memory.save.isSome then (s, Status.busy.alone)
  else if 3 ≤ s.memory.protect then (s, Status.isProtected.alone)
  else (beginSave s, Status.accepted.alone)

/-- R161: the protect change begins. -/
def beginProtect (level : Nat) (s : State) : State :=
  grant (askMemory .protect (.statusWrite level)
    (setMemory { s.memory with protectChange := some level } s))

def handleSetProtect (body : List Byte) (s : State) : Handled :=
  let level := at8 body 0
  if 3 < level then (s, Status.badValue.alone)
  else if s.memory.state = .absent then (s, Status.noMemory.alone)
  else if s.memory.state = .detecting then (s, Status.notReady.alone)
  else if s.memory.protectChange.isSome then (s, Status.busy.alone)
  else if level < s.memory.protect ∧ s.pins.allow = false then (s, Status.isProtected.alone)
  else if level = s.memory.protect then (s, .ok)
  else (beginProtect level s, Status.accepted.alone)

/-! ### Dictionary download (R162 to R164) -/

/-- R162, R140: the download becomes OPEN. -/
def openDownload (s : State) : State :=
  let s := setDictStatus .download (setMemory { s.memory with downloadOpen := true } s)
  if s.spelling.unit = .starting then s else releaseAdvance (becomeUnavailable 2 s)

def handleDictOpen (_ : List Byte) (s : State) : Handled :=
  if s.memory.state = .absent then (s, Status.noMemory.alone)
  else if s.memory.state = .detecting then (s, Status.notReady.alone)
  else if s.memory.dictClose then (s, Status.busy.alone)
  else if s.memory.protect ≠ 0 then (s, Status.isProtected.alone)
  else if s.memory.downloadOpen then (s, .ok)
  else (textEnd (openDownload s), .ok)

/-- R163: the offset of a DICT-WRITE. -/
def dictOffset (body : List Byte) : Nat := num24 (body.getD 0 0) (body.getD 1 0) (body.getD 2 0)

/-- R163: whether the offset is a multiple of 4 and the 32 bytes lie within the memory. The body's length, which
is fixed, the Link Controller has judged (R178). -/
def dictBodyFits (body : List Byte) (s : State) : Bool :=
  dictOffset body % 4 == 0 && dictionaryBase + dictOffset body + 32 ≤ endOfMemory s.memory.sizeCode

/-- R163: the dictionary write begins. -/
def beginDictWrite (body : List Byte) (s : State) : State :=
  let x : DictWriteOp := { offset := dictOffset body, data := body.drop 3, done := 0 }
  grant (askMemory .dictWrite (dictAccess x 0) (setMemory { s.memory with dictWrite := some x } s))

def handleDictWrite (body : List Byte) (s : State) : Handled :=
  if s.memory.state = .absent then (s, Status.noMemory.alone)
  else if s.memory.downloadOpen = false then (s, Status.notOpen.alone)
  else if s.memory.dictWrite.isSome then (s, Status.busy.alone)
  else if dictBodyFits body s = false then (s, Status.badValue.alone)
  else if s.memory.protect ≠ 0 then (s, Status.isProtected.alone)
  else (beginDictWrite body s, Status.accepted.alone)

/-- R164: the download becomes CLOSED and the header is asked for. -/
def closeDownload (s : State) : State :=
  grant (askMemory .dictClose (.read dictionaryBase)
    (setMemory { s.memory with downloadOpen := false, dictClose := true } s))

def handleDictClose (_ : List Byte) (s : State) : Handled :=
  if s.memory.state = .absent then (s, Status.noMemory.alone)
  else if s.memory.downloadOpen = false then (s, Status.notOpen.alone)
  else if s.memory.dictWrite.isSome then (s, Status.busy.alone)
  else (closeDownload s, Status.accepted.alone)

/-! ### RESET (R182) -/

def handleReset (_ : List Byte) (s : State) : Handled :=
  (setLink { s.link with resetPending := true } s, .ok)

/-! ### The commands -/

/-- ACCEPT_WORD (R135). -/
def execAcceptWord (tag : Byte) (body : List Byte) (s : State) : Host.Outcome State Fault Refusal :=
  .next (acceptFrame 0x40 tag (fixedBody 2 handleAcceptWord) body s)

/-- ADD_WORD (R138). -/
def execAddWord (tag : Byte) (body : List Byte) (s : State) : Host.Outcome State Fault Refusal :=
  .next (acceptFrame 0x41 tag handleAddWord body s)

/-- REMOVE_WORD (R139). -/
def execRemoveWord (tag : Byte) (body : List Byte) (s : State) : Host.Outcome State Fault Refusal :=
  .next (acceptFrame 0x42 tag handleRemoveWord body s)

/-- LOAD_WHEEL_BEGIN (R49). -/
def execLoadWheelBegin (tag : Byte) (body : List Byte) (s : State) : Host.Outcome State Fault Refusal :=
  .next (acceptFrame 0x50 tag (fixedBody 4 handleLoadWheelBegin) body s)

/-- LOAD_WHEEL_PETALS (R50). -/
def execLoadWheelPetals (tag : Byte) (body : List Byte) (s : State) : Host.Outcome State Fault Refusal :=
  .next (acceptFrame 0x51 tag handleLoadWheelPetals body s)

/-- LOAD_WHEEL_END (R51, R52). -/
def execLoadWheelEnd (tag : Byte) (body : List Byte) (s : State) : Host.Outcome State Fault Refusal :=
  .next (acceptFrame 0x52 tag (fixedBody 1 handleLoadWheelEnd) body s)

/-- SET_COMPOSITE (R54). -/
def execSetComposite (tag : Byte) (body : List Byte) (s : State) : Host.Outcome State Fault Refusal :=
  .next (acceptFrame 0x53 tag (fixedBody 3 handleSetComposite) body s)

/-- SAVE_SETTINGS (R166). -/
def execSaveSettings (tag : Byte) (body : List Byte) (s : State) : Host.Outcome State Fault Refusal :=
  .next (acceptFrame 0x60 tag (fixedBody 0 handleSaveSettings) body s)

/-- SET_PROTECT (R161). -/
def execSetProtect (tag : Byte) (body : List Byte) (s : State) : Host.Outcome State Fault Refusal :=
  .next (acceptFrame 0x61 tag (fixedBody 1 handleSetProtect) body s)

/-- DICT_OPEN (R162). -/
def execDictOpen (tag : Byte) (body : List Byte) (s : State) : Host.Outcome State Fault Refusal :=
  .next (acceptFrame 0x62 tag (fixedBody 0 handleDictOpen) body s)

/-- DICT_WRITE (R163). -/
def execDictWrite (tag : Byte) (body : List Byte) (s : State) : Host.Outcome State Fault Refusal :=
  .next (acceptFrame 0x63 tag (fixedBody 35 handleDictWrite) body s)

/-- DICT_CLOSE (R164). -/
def execDictClose (tag : Byte) (body : List Byte) (s : State) : Host.Outcome State Fault Refusal :=
  .next (acceptFrame 0x64 tag (fixedBody 0 handleDictClose) body s)

/-- RESET (R182). -/
def execReset (tag : Byte) (body : List Byte) (s : State) : Host.Outcome State Fault Refusal :=
  .next (acceptFrame 0x7F tag (fixedBody 0 handleReset) body s)

end Sys2Proof.Machine
end

