-- ==== Sys2Proof/Machine/Framer.lean ====
section
/-!
DEFINITION. The receive side of the Link Controller (R175 to R178), the end of a sent frame (R181), and the
resets (R182, R183, with R25, R58, R83, R96, R110, R123, R142, R154, R168, R174).
-/

namespace Sys2Proof.Machine

/-! ### Frames complete (R176 to R178) -/

/-- R178: the owner of a request of a kind; none for a kind that names no request. -/
def handlerOf (kind : Nat) : Option (List Byte → State → Handled) :=
  match kind with
  | 0x01 => some handleType
  | 0x02 => some (fixedBody 0 handleRelease)
  | 0x03 => some (fixedBody 0 handleStop)
  | 0x04 => some (fixedBody 0 handleResume)
  | 0x05 => some (fixedBody 0 handleHome)
  | 0x06 => some (fixedBody 1 handleFeed)
  | 0x10 => some (fixedBody 15 handleSetFormat)
  | 0x11 => some handleSetTabs
  | 0x12 => some (fixedBody 6 handleSetWatch)
  | 0x13 => some (fixedBody 2 handleSetReports)
  | 0x14 => some (fixedBody 6 handleSetSound)
  | 0x15 => some (fixedBody 4 handleSetSensors)
  | 0x16 => some (fixedBody 1 handleSound)
  | 0x20 => some (fixedBody 0 handleGetStatus)
  | 0x21 => some (fixedBody 1 handleGetLine)
  | 0x22 => some handleGetWord
  | 0x23 => some (fixedBody 0 handleGetFormat)
  | 0x24 => some (fixedBody 1 handleGetWheel)
  | 0x30 => some handleShowMessage
  | 0x31 => some (fixedBody 0 handleClearMessage)
  | 0x32 => some (fixedBody 1 handleSetContrast)
  | 0x40 => some (fixedBody 2 handleAcceptWord)
  | 0x41 => some handleAddWord
  | 0x42 => some handleRemoveWord
  | 0x50 => some (fixedBody 4 handleLoadWheelBegin)
  | 0x51 => some handleLoadWheelPetals
  | 0x52 => some (fixedBody 1 handleLoadWheelEnd)
  | 0x53 => some (fixedBody 3 handleSetComposite)
  | 0x60 => some (fixedBody 0 handleSaveSettings)
  | 0x61 => some (fixedBody 1 handleSetProtect)
  | 0x62 => some (fixedBody 0 handleDictOpen)
  | 0x63 => some (fixedBody 35 handleDictWrite)
  | 0x64 => some (fixedBody 0 handleDictClose)
  | 0x7F => some (fixedBody 0 handleReset)
  | _ => none

/-- R177: a kind that names no request is handed to no block. -/
def handleUnknown (_ : List Byte) (s : State) : Handled := (s, Status.unknownKind.alone)

/-- R176, R177: a complete frame whose check byte is right. -/
def completeFrame (kind tag : Byte) (body : List Byte) (s : State) : State :=
  if kindIsBad kind then drawNak tag [0x03, kind] (hunt s)
  else acceptFrame kind tag ((handlerOf kind.toNat).getD handleUnknown) body s

/-- UNKNOWN_KIND (R177). -/
def execUnknownKind (kind tag : Byte) (body : List Byte) (s : State) : Host.Outcome State Fault Refusal :=
  .next (completeFrame kind tag body s)

/-- NAK_BAD_CHECK (R176). -/
def execNakBadCheck (kind tag : Byte) (s : State) : Host.Outcome State Fault Refusal :=
  .next (drawNak tag [0x01, kind] (hunt s))

/-- NAK_BAD_KIND (R176): a complete frame of the kind given. -/
def execNakBadKind (kind tag : Byte) (s : State) : Host.Outcome State Fault Refusal :=
  .next (completeFrame kind tag [] s)

/-- R175: a length byte above 56. -/
def badLength (s : State) : State := drawNak 0 [0x02] (hunt s)

/-- NAK_BAD_LENGTH (R175); a length of 0 to 56 is not this event. -/
def execNakBadLength (length : Byte) (s : State) : Host.Outcome State Fault Refusal :=
  if Config.bodyMax < length.toNat then .next (badLength s) else .next s

/-- BAD_BYTE (R175). -/
def execBadByte (s : State) : Host.Outcome State Fault Refusal :=
  if s.link.framer = .hunting then .next s else .next (hunt s)

/-- GAP_TIMER (R175). -/
def execGapTimer (s : State) : Host.Outcome State Fault Refusal :=
  match s.link.gap with
  | none => .next s
  | some t => .next (hunt (s.reach t))

/-! ### Bytes received (R175) -/

/-- R175: the framer takes a byte into the frame in hand; the gap timer starts. -/
def takeByte (x : FramerState) (f : FrameInHand) (s : State) : State :=
  setLink { s.link with framer := x, frame := f, gap := some (s.now + Config.gapTime) } s

/-- R176: the check byte of the frame in hand. -/
def FrameInHand.check (f : FrameInHand) : Byte := 255 - f.sum

/-- R175, R176: a good byte, by the framer's state. -/
def frameByte (b : Byte) (s : State) : State :=
  let f := s.link.frame
  match s.link.framer with
  | .hunting => if b = 0xA5 then takeByte .length .clear s else s
  | .length =>
    if Config.bodyMax < b.toNat then badLength s
    else takeByte .kind { f with length := b.toNat, sum := b } s
  | .kind => takeByte .tag { f with kind := b, sum := f.sum + b } s
  | .tag =>
    takeByte (if f.length = 0 then .check else .body) { f with tag := b, sum := f.sum + b } s
  | .body =>
    takeByte (if f.length ≤ f.body.length + 1 then .check else .body)
      { f with body := f.body ++ [b], sum := f.sum + b } s
  | .check =>
    if b = f.check then completeFrame f.kind f.tag f.body s
    else drawNak f.tag [0x01, f.kind] (hunt s)

/-- BYTE_RECEIVED (R175); while the RESET pin is held low a received byte is discarded (R182). -/
def execByteReceived (b : Byte) (s : State) : Host.Outcome State Fault Refusal :=
  if s.pins.resetLow then .next s else .next (frameByte b s)

/-! ### Reset (R182, R183) -/

/-- R168, R155: the memory at a reset: a write it had taken may still finish in it (a free value, log entry
4); the latch is cleared by the write-disable command. -/
def Chip.reset (c : Chip) (fresh : Nat) (current : Option Transaction) : Chip :=
  let landed := match current with
    | none => c
    | some t =>
      if Config.resetWriteLands fresh then { c.ended t.request.access with busyFlag := c.busyFlag } else c
  { landed with writeLatch := false }

/-- R174: the inputs at a reset. -/
def Sensors.reset (x : Sensors) : Sensors :=
  { cover := .reset x.cover.raw, paper := .reset x.paper.raw, tape := .reset x.tape.raw,
    ribbon := .reset x.ribbon.raw }

/-- R182, R183: every block stands as its chapter's reset rule gives; then the Print Engine and the Spelling
Unit report their changes (R60, R140). -/
def resetMachine (protect : Nat) (s : State) : State :=
  let t := { s with
    link := .reset s.pins, composer := .reset, line := .reset, wheel := .reset, strikeQueue := [],
    engine := .reset s.engine.channelA s.engine.channelB, correction := .reset,
    impression := .reset s.now, zone := .reset, spelling := .reset, display := .reset s.now,
    memory := .reset protect s.now, chip := s.chip.reset s.fresh s.memory.current,
    sensors := s.sensors.reset, sounder := .reset, fresh := s.fresh + 1 }
  raiseSpell 3 [byte UnitState.starting.code] (engineReport t)

/-- R182: whether a frame is the reply that answers a RESET request OK. A RESET of a wrong length is answered
BAD-VALUE (R178) in a frame of the same kind, after which no reset takes place. -/
def OutFrame.isResetReply (f : OutFrame) : Bool := f.kind == 0xFF && f.body == [byte Status.ok.code]

/-- R181, R182: a frame has been sent: the reset takes place after the RESET reply; then the line chooses. -/
def frameGone (f : OutFrame) (s : State) : State :=
  let s := setLink { s.link with transmit := none } s
  if s.link.resetPending ∧ f.isResetReply then chooseFrame (resetMachine s.memory.protect s)
  else chooseFrame s

/-- FRAME_SENT (R181, R182). -/
def execFrameSent (s : State) : Host.Outcome State Fault Refusal :=
  match s.link.transmit with
  | none => .next s
  | some t => .next (frameGone t.frame (s.reach t.ends))

/-- RESET_PIN (R182): the pin is asserted; the level after power-on is 3 (R168). -/
def execResetPin (s : State) : Host.Outcome State Fault Refusal :=
  if s.pins.resetLow then .next s
  else
    let t := resetMachine 3 s
    .next { t with pins := { t.pins with resetLow := true } }

/-- RESET_PIN_RELEASE (R182): the pin returns high, and the line may send. -/
def execResetPinRelease (s : State) : Host.Outcome State Fault Refusal :=
  if s.pins.resetLow then .next (chooseFrame { s with pins := { s.pins with resetLow := false } })
  else .next s

end Sys2Proof.Machine
end

