-- ==== Sys2Proof/Machine/Dispatch.lean ====
section
/-!
DEFINITION. One arm for each command, each a direct call of its meaning.
-/

namespace Sys2Proof.Machine

/-- The effect of a command on everything but the queue of commands that wait. -/
def exec (i : Instr) (s : State) : Host.Outcome State Fault Refusal :=
  match i with
  | .type tag body => Sys2Proof.Machine.execType tag body s
  | .release tag body => Sys2Proof.Machine.execRelease tag body s
  | .stop tag body => Sys2Proof.Machine.execStop tag body s
  | .resume tag body => Sys2Proof.Machine.execResume tag body s
  | .home tag body => Sys2Proof.Machine.execHome tag body s
  | .feed tag body => Sys2Proof.Machine.execFeed tag body s
  | .setFormat tag body => Sys2Proof.Machine.execSetFormat tag body s
  | .setTabs tag body => Sys2Proof.Machine.execSetTabs tag body s
  | .setWatch tag body => Sys2Proof.Machine.execSetWatch tag body s
  | .setReports tag body => Sys2Proof.Machine.execSetReports tag body s
  | .setSound tag body => Sys2Proof.Machine.execSetSound tag body s
  | .setSensors tag body => Sys2Proof.Machine.execSetSensors tag body s
  | .sound tag body => Sys2Proof.Machine.execSound tag body s
  | .getStatus tag body => Sys2Proof.Machine.execGetStatus tag body s
  | .getLine tag body => Sys2Proof.Machine.execGetLine tag body s
  | .getWord tag body => Sys2Proof.Machine.execGetWord tag body s
  | .getFormat tag body => Sys2Proof.Machine.execGetFormat tag body s
  | .getWheel tag body => Sys2Proof.Machine.execGetWheel tag body s
  | .showMessage tag body => Sys2Proof.Machine.execShowMessage tag body s
  | .clearMessage tag body => Sys2Proof.Machine.execClearMessage tag body s
  | .setContrast tag body => Sys2Proof.Machine.execSetContrast tag body s
  | .acceptWord tag body => Sys2Proof.Machine.execAcceptWord tag body s
  | .addWord tag body => Sys2Proof.Machine.execAddWord tag body s
  | .removeWord tag body => Sys2Proof.Machine.execRemoveWord tag body s
  | .loadWheelBegin tag body => Sys2Proof.Machine.execLoadWheelBegin tag body s
  | .loadWheelPetals tag body => Sys2Proof.Machine.execLoadWheelPetals tag body s
  | .loadWheelEnd tag body => Sys2Proof.Machine.execLoadWheelEnd tag body s
  | .setComposite tag body => Sys2Proof.Machine.execSetComposite tag body s
  | .saveSettings tag body => Sys2Proof.Machine.execSaveSettings tag body s
  | .setProtect tag body => Sys2Proof.Machine.execSetProtect tag body s
  | .dictOpen tag body => Sys2Proof.Machine.execDictOpen tag body s
  | .dictWrite tag body => Sys2Proof.Machine.execDictWrite tag body s
  | .dictClose tag body => Sys2Proof.Machine.execDictClose tag body s
  | .reset tag body => Sys2Proof.Machine.execReset tag body s
  | .unknownKind kind tag body => Sys2Proof.Machine.execUnknownKind kind tag body s
  | .nakBadCheck kind tag => Sys2Proof.Machine.execNakBadCheck kind tag s
  | .nakBadKind kind tag => Sys2Proof.Machine.execNakBadKind kind tag s
  | .nakBadLength length => Sys2Proof.Machine.execNakBadLength length s
  | .badByte => Sys2Proof.Machine.execBadByte s
  | .gapTimer => Sys2Proof.Machine.execGapTimer s
  | .frameSent => Sys2Proof.Machine.execFrameSent s
  | .resetPin => Sys2Proof.Machine.execResetPin s
  | .glyphItem => Sys2Proof.Machine.execGlyphItem s
  | .spaceItem => Sys2Proof.Machine.execSpaceItem s
  | .tabItem => Sys2Proof.Machine.execTabItem s
  | .returnItem => Sys2Proof.Machine.execReturnItem s
  | .backspaceItem => Sys2Proof.Machine.execBackspaceItem s
  | .relocateItem => Sys2Proof.Machine.execRelocateItem s
  | .boldItem => Sys2Proof.Machine.execBoldItem s
  | .underlineItem => Sys2Proof.Machine.execUnderlineItem s
  | .marginReleaseItem => Sys2Proof.Machine.execMarginReleaseItem s
  | .correctItem => Sys2Proof.Machine.execCorrectItem s
  | .wordCorrectItem => Sys2Proof.Machine.execWordCorrectItem s
  | .unassignedItem => Sys2Proof.Machine.execUnassignedItem s
  | .cycleTimeExpiry => Sys2Proof.Machine.execCycleTimeExpiry s
  | .carriageMoveEnd => Sys2Proof.Machine.execCarriageMoveEnd s
  | .wheelTurnEnd => Sys2Proof.Machine.execWheelTurnEnd s
  | .platenMotionEnd => Sys2Proof.Machine.execPlatenMotionEnd s
  | .settlingEnd => Sys2Proof.Machine.execSettlingEnd s
  | .driveEnd => Sys2Proof.Machine.execDriveEnd s
  | .brakeEnd => Sys2Proof.Machine.execBrakeEnd s
  | .carriageMoveLimit => Sys2Proof.Machine.execCarriageMoveLimit s
  | .wheelTurnLimit => Sys2Proof.Machine.execWheelTurnLimit s
  | .encoderEdge a b => Sys2Proof.Machine.execEncoderEdge a b s
  | .indexPulse => Sys2Proof.Machine.execIndexPulse s
  | .carriageSearchLimit => Sys2Proof.Machine.execCarriageSearchLimit s
  | .homeFlagFound => Sys2Proof.Machine.execHomeFlagFound s
  | .wheelCodeRead code => Sys2Proof.Machine.execWheelCodeRead code s
  | .wheelPhaseLimit => Sys2Proof.Machine.execWheelPhaseLimit s
  | .feedMotionEnd => Sys2Proof.Machine.execFeedMotionEnd s
  | .rawLevelChange input level => Sys2Proof.Machine.execRawLevelChange input level s
  | .debounceExpiry input => Sys2Proof.Machine.execDebounceExpiry input s
  | .supplyMeasurement reading => Sys2Proof.Machine.execSupplyMeasurement reading s
  | .heatDecay => Sys2Proof.Machine.execHeatDecay s
  | .wordBlink => Sys2Proof.Machine.execWordBlink s
  | .cursorBlink => Sys2Proof.Machine.execCursorBlink s
  | .overlayTimer => Sys2Proof.Machine.execOverlayTimer s
  | .oneShotEnd => Sys2Proof.Machine.execOneShotEnd s
  | .transactionEnd => Sys2Proof.Machine.execTransactionEnd s
  | .writeBusyLimit => Sys2Proof.Machine.execWriteBusyLimit s
  | .busyClear => Sys2Proof.Machine.execBusyClear s
  | .detectionPollLimit => Sys2Proof.Machine.execDetectionPollLimit s
  | .byteReceived b => Sys2Proof.Machine.execByteReceived b s
  | .resetPinRelease => Sys2Proof.Machine.execResetPinRelease s

end Sys2Proof.Machine
end

