-- ==== Sys2Proof/Machine/Clock.lean ====
section
/-!
DEFINITION. What the block does when no command waits (log entry 3): the event that is due by its own clock
and its own state, if there is one, and otherwise a tenth of a millisecond passes.
-/

namespace Sys2Proof.Machine

/-- A command that is due once the clock has reached a moment. -/
def dueAt (now : Time) (t : Option Time) (c : Instr) : Option Instr :=
  match t with
  | some d => if d ≤ now then some c else none
  | none => none

/-- The item command for a code. -/
def itemCommand (code : Byte) : Instr :=
  match code.toNat with
  | 0x20 => .spaceItem
  | 0x09 => .tabItem
  | 0x0D => .returnItem
  | 0x08 => .backspaceItem
  | 0x1E => .relocateItem
  | 0x02 => .boldItem
  | 0x15 => .underlineItem
  | 0x1B => .marginReleaseItem
  | 0x1C => .correctItem
  | 0x1D => .wordCorrectItem
  | _ => if isGlyphCode code then .glyphItem else .unassignedItem

/-- R3: the item that the Composer, TAKING, takes. -/
def dueItem (s : State) : Option Instr :=
  match s.composer.keyQueue with
  | [] => none
  | code :: _ => if (waitsFor s code).any then none else some (itemCommand code)

/-- When the phase of a firing that the order in progress stands in ends. -/
def duePhase (s : State) : Option Instr :=
  match s.engine.order with
  | none => none
  | some o =>
    match o.phase with
    | .moving => none
    | .settling => dueAt s.now o.phaseEnd .settlingEnd
    | .drive => dueAt s.now o.phaseEnd .driveEnd
    | .brake => dueAt s.now o.phaseEnd .brakeEnd

/-- When the homing phase reaches its limit. -/
def dueHoming (s : State) : Option Instr :=
  match s.engine.homing with
  | none => none
  | some .carriageSearch => dueAt s.now s.engine.homingLimit .carriageSearchLimit
  | some .carriageReturn => dueAt s.now s.engine.homingLimit .carriageMoveLimit
  | some .wheelSearch => dueAt s.now s.engine.homingLimit .wheelPhaseLimit
  | some .wheelRead => dueAt s.now s.engine.homingLimit .wheelPhaseLimit

/-- When the busy poll of detection or of a write reaches its limit. -/
def duePoll (s : State) : Option Instr :=
  match s.memory.detection with
  | .poll limit => dueAt s.now (some limit) .detectionPollLimit
  | _ => dueAt s.now (s.memory.current.bind (·.busyUntil)) .writeBusyLimit

/-- Everything that may be due, in the order in which the model takes what falls together. The rail voltage
of a measurement that no command brings is a free value. -/
def dueCommand (s : State) : Option Instr :=
  [dueItem s,
    dueAt s.now s.link.gap .gapTimer,
    dueAt s.now (s.link.transmit.map (·.ends)) .frameSent,
    dueAt s.now (s.sounder.playing.map (·.ends)) .oneShotEnd,
    dueAt s.now s.sensors.cover.timer (.debounceExpiry .cover),
    dueAt s.now s.sensors.paper.timer (.debounceExpiry .paper),
    dueAt s.now s.sensors.tape.timer (.debounceExpiry .tape),
    dueAt s.now s.sensors.ribbon.timer (.debounceExpiry .ribbon),
    duePhase s,
    dueAt s.now (s.engine.order.bind (·.carriage)) .carriageMoveLimit,
    dueAt s.now (s.engine.order.bind (·.wheel)) .wheelTurnLimit,
    dueHoming s,
    (if s.engine.groupWait = some .cycle then dueAt s.now (some (cycleExpiry s)) .cycleTimeExpiry else none),
    duePoll s,
    dueAt s.now (overlayExpiry s) .overlayTimer,
    dueAt s.now (some s.impression.measureDue) (.supplyMeasurement (Config.railReading s.fresh)),
    dueAt s.now (some s.impression.decayDue) .heatDecay,
    dueAt s.now (some s.display.wordBlinkDue) .wordBlink,
    dueAt s.now (some s.display.cursorBlinkDue) .cursorBlink].findSome? id

/-- The clock moves on by a tenth of a millisecond. -/
def tick (s : State) : State := { s with now := s.now + 1 }

/-- An event that falls due while no command waits. The counter of free values moves with each, so that a
reading of the rail is a fresh one. -/
def idle (s : State) : Host.Outcome State Fault Refusal :=
  match dueCommand s with
  | some c => exec c { s with fresh := s.fresh + 1 }
  | none => .next (tick s)

end Sys2Proof.Machine
end

