-- ==== Sys2Proof/Safety.lean ====
section
/-!
DEFINITION. What counts as a safe run: no step of it faults or is refused. And the terms in which the
statements speak: request frames and their bytes, what a text event leaves alone, and the conditions on a
state that are claimed as invariants.
-/

namespace Sys2Proof

open Machine

/-- A step that answers a next state. -/
def stepsOn (s : State) : Prop := ∃ t, step s = .next t

/-- Whether the transaction in hand, if there is one, lies within the memory (R157). -/
def transactionWithin (s : State) : Bool :=
  s.memory.current.all fun t => t.request.access.within (endOfMemory s.memory.sizeCode)

/-! ### Request frames (R175 to R178) -/

/-- R177, R182: the Link Controller takes a frame that is complete: the RESET pin is high, no reset is
pending, and fewer than 8 replies wait. -/
def hears (s : State) : Prop :=
  s.pins.resetLow = false ∧ s.link.resetPending = false ∧ s.link.replies.length < 8

/-- R178: the kind, tag and body of the frame whose acceptance a request row is. -/
def Instr.frame : Instr → Option (Byte × Byte × List Byte)
  | .type t b => some (0x01, t, b)
  | .release t b => some (0x02, t, b)
  | .stop t b => some (0x03, t, b)
  | .resume t b => some (0x04, t, b)
  | .home t b => some (0x05, t, b)
  | .feed t b => some (0x06, t, b)
  | .setFormat t b => some (0x10, t, b)
  | .setTabs t b => some (0x11, t, b)
  | .setWatch t b => some (0x12, t, b)
  | .setReports t b => some (0x13, t, b)
  | .setSound t b => some (0x14, t, b)
  | .setSensors t b => some (0x15, t, b)
  | .sound t b => some (0x16, t, b)
  | .getStatus t b => some (0x20, t, b)
  | .getLine t b => some (0x21, t, b)
  | .getWord t b => some (0x22, t, b)
  | .getFormat t b => some (0x23, t, b)
  | .getWheel t b => some (0x24, t, b)
  | .showMessage t b => some (0x30, t, b)
  | .clearMessage t b => some (0x31, t, b)
  | .setContrast t b => some (0x32, t, b)
  | .acceptWord t b => some (0x40, t, b)
  | .addWord t b => some (0x41, t, b)
  | .removeWord t b => some (0x42, t, b)
  | .loadWheelBegin t b => some (0x50, t, b)
  | .loadWheelPetals t b => some (0x51, t, b)
  | .loadWheelEnd t b => some (0x52, t, b)
  | .setComposite t b => some (0x53, t, b)
  | .saveSettings t b => some (0x60, t, b)
  | .setProtect t b => some (0x61, t, b)
  | .dictOpen t b => some (0x62, t, b)
  | .dictWrite t b => some (0x63, t, b)
  | .dictClose t b => some (0x64, t, b)
  | .reset t b => some (0x7F, t, b)
  | _ => none

/-- R178: the body length of the requests whose length is fixed. -/
def fixedLength (kind : Byte) : Option Nat :=
  match kind.toNat with
  | 0x02 | 0x03 | 0x04 | 0x05 | 0x20 | 0x23 | 0x31 | 0x60 | 0x62 | 0x64 | 0x7F => some 0
  | 0x06 | 0x16 | 0x21 | 0x24 | 0x32 | 0x52 | 0x61 => some 1
  | 0x13 | 0x40 => some 2
  | 0x53 => some 3
  | 0x15 | 0x50 => some 4
  | 0x12 | 0x14 => some 6
  | 0x10 => some 15
  | 0x63 => some 35
  | _ => none

/-- R176: the check byte of a frame: 255 minus the low byte of the sum of the bytes after the start. -/
def frameCheck (kind tag : Byte) (body : List Byte) : Byte :=
  checkByte (byte body.length :: kind :: tag :: body)

/-- R175: the bytes of a frame, with the check byte given. -/
def frameBytes (kind tag : Byte) (body : List Byte) (check : Byte) : List Byte :=
  [0xA5, byte body.length, kind, tag] ++ body ++ [check]

/-- Bytes received one after another. -/
def receive : List Byte → State → Host.Outcome State Fault Refusal
  | [], s => .next s
  | b :: bs, s =>
    match exec (.byteReceived b) s with
    | .next t => receive bs t
    | other => other

/-! ### Reset -/

/-- The reset values (R25, R58, R83, R96, R110, R123, R142, R154, R155, R168, R174, R183), as a state `t` shows
them: `p` is the protect level, `n` the moment of the reset, `s` the state before it. -/
def standsAfterReset (p n : Nat) (s t : State) : Prop :=
  t.composer.keyQueue = [] ∧ t.composer.bold = false ∧ t.composer.underline = false ∧
    t.composer.marginRelease = false ∧ t.composer.printPoint = 120 ∧ t.composer.nextCellId = 0 ∧
    t.composer.format =
      { pitch := .twelve, leftMargin := 120, rightMargin := 1080, spacing := 8, alignment := .left,
        mode := .direct, wrap := true, spelling := .flag, impression := 0, speed := 3, bellZone := 60 } ∧
    t.line.cells = [] ∧ t.line.paper = none ∧ t.line.releaseMark = none ∧
    t.line.composing = { leftMargin := 120, ended := none, releasedFlush := false } ∧
    t.wheel.mounted = 0 ∧ t.wheel.cache = [none, none] ∧ t.wheel.active = none ∧
    t.wheel.resolution = .settled ∧ t.wheel.glyphMap = [] ∧ t.wheel.composites = [] ∧
    t.wheel.directoryState = .loading ∧ t.wheel.staging.state = .empty ∧ t.wheel.store = none ∧
    t.strikeQueue = [] ∧ t.engine.state = .unhomed ∧ t.engine.carriage = none ∧
    t.engine.wheelPosition = none ∧ t.engine.homing = none ∧ t.engine.order = none ∧
    t.engine.cycleTimer = none ∧ t.engine.latchedSpeed = none ∧ t.engine.groupWait = none ∧
    t.engine.feed = none ∧ t.engine.faultDetail = none ∧
    t.correction = { deferred := none, waiting := [] } ∧
    t.impression =
      { band := .nominal, firstPending := true, lastReading := none, measureDue := n + 100, heat := 0,
        decayDue := n + 1000, coolingLatch := false } ∧
    t.zone =
      { bellArmed := true, tabStops := [],
        watch1 := { position := 0, span := 1, kind := .note, enabled := false },
        watch2 := { position := 0, span := 1, kind := .note, enabled := false },
        holdPass := false, holdNoted := false } ∧
    t.spelling.unit = .starting ∧ t.spelling.status = .none ∧ t.spelling.words = [] ∧
    t.spelling.nextWordId = 0 ∧ t.spelling.openWord = .none ∧ t.spelling.pendingApostrophe = none ∧
    t.spelling.checkQueue = [] ∧ t.spelling.lookup = none ∧ t.spelling.ignoreList = [] ∧
    t.spelling.userIndex = List.replicate 256 none ∧ t.spelling.userOp = none ∧
    t.display.windowStart = 0 ∧ t.display.cursorColumn = 0 ∧ t.display.overlay = none ∧
    t.display.wordBlinkOn = true ∧ t.display.wordBlinkDue = n + 2500 ∧ t.display.cursorBlinkOn = true ∧
    t.display.cursorBlinkDue = n + 4000 ∧ t.display.rendered = false ∧ t.display.contrast = 8 ∧
    t.display.cells = List.replicate 32 { shape := .blank, underlineRow := false } ∧
    t.memory.state = .detecting ∧ t.memory.sizeCode = none ∧ t.memory.protect = p ∧
    t.memory.busy = false ∧ t.memory.current = none ∧ t.memory.level1 = [] ∧ t.memory.level2 = [] ∧
    t.memory.level3 = [] ∧ t.memory.level4 = [] ∧ t.memory.downloadOpen = false ∧
    t.memory.dictWrite = none ∧ t.memory.dictClose = false ∧ t.memory.save = none ∧
    t.memory.protectChange = none ∧ t.memory.detection = .poll (n + 200) ∧ t.chip.writeLatch = false ∧
    (∀ i, t.sensors.get i =
      { debounced := (s.sensors.get i).raw, raw := (s.sensors.get i).raw, timer := none,
        selection := .both }) ∧
    t.sounder =
      { volume := 2, bellEnable := true, tone := false, frequency := 1000, queue := [], playing := none } ∧
    t.link.framer = .hunting ∧ t.link.gap = none ∧ t.link.replies = [] ∧ t.link.mask = 0x07FF ∧
    t.link.resetPending = false ∧
    t.link.rate = (match s.pins.rate1, s.pins.rate0 with
      | false, false => 9600 | false, true => 19200 | true, false => 38400 | true, true => 57600)

/-! ### What a text event leaves alone -/

/-- A cell without its state, its word, its strike records and its flags: what its creation fixes. -/
def fixedPart (c : Cell) : Cell :=
  { c with state := .held, word := none, strikes := [], underlineDropped := false, unprintable := false }

/-- A state with everything blanked out that the end of a text event (the settling of strike queue and
engine, the beginning of a lookup, the judgement of the head item, the arbiter's grant and the render) may
change. Two states that agree here agree in everything else. -/
def besideText (s : State) : State :=
  { s with
    link := { s.link with reports := [] }
    composer := { s.composer with waits := .clear, openRun := [] }
    line := { s.line with cells := [], releaseMark := none }
    wheel := { s.wheel with directory := [], store := none, staging := .clear }
    strikeQueue := []
    engine :=
      { s.engine with
        state := .unhomed, order := none, groupStarted := false, cycleTimer := none, latchedSpeed := none,
        groupWait := none }
    correction := .reset
    impression := { s.impression with coolingLatch := false }
    zone := { s.zone with holdNoted := false }
    spelling :=
      { s.spelling with
        words := [], openWord := .none, pendingApostrophe := none, checkQueue := [], lookup := none,
        ignoreList := [], userOp := none }
    display :=
      { s.display with
        windowStart := 0, cursorIndex := 0, cursorColumn := 0, cells := [], cursorBlinkOn := true,
        cursorBlinkDue := 0 }
    memory :=
      { s.memory with
        current := none, level1 := [], level2 := [], level3 := [], level4 := [], dictWrite := none,
        save := none, protectChange := none }
    chip := { s.chip with writeLatch := false, busyFlag := false }
    sounder := { s.sounder with queue := [], playing := none } }

/-! ### Wheels, release units, user-word slots -/

/-- R45: cache slot `k` is the one chosen for a profile of a wheel code. -/
def slotFor (w : WheelUnit) (code k : Nat) : Prop :=
  let holds (i : Nat) : Prop := ∃ p, w.cache[i]? = some (some p) ∧ p.code = code
  let free (i : Nat) : Prop :=
    w.active ≠ some i ∧ ∀ c d b, w.fetch ≠ some { code := c, progress := .reading d i b }
  let empty (i : Nat) : Prop := ∀ p, w.cache[i]? ≠ some (some p)
  (k = 0 ∨ k = 1) ∧
    (holds k ∧ (k = 1 → ¬holds 0) ∨
      ¬holds 0 ∧ ¬holds 1 ∧ free k ∧
        (empty k ∧ (k = 1 → ¬(free 0 ∧ empty 0)) ∨
          ¬(free 0 ∧ empty 0) ∧ ¬(free 1 ∧ empty 1) ∧
            ∃ l r, w.recency = l ++ k :: r ∧ ∀ j ∈ r, ¬free j))

/-- R46, R48: a fetch of code `c` searches the directory of `t`, and `u` is what follows: no entry, and the unit
waits for records; or the lowest entry, a cache slot emptied, and the first of the 80 reads asked for. -/
def fetchSearches (c : Nat) (t u : State) : Prop :=
  (some c ∉ t.wheel.directory →
    u = raise .wheel 1 [byte c]
      { t with wheel := { t.wheel with fetch := none, resolution := .unresolved } }) ∧
  ∀ d slot, t.wheel.directory[d]? = some (some c) → (∀ j < d, t.wheel.directory[j]? ≠ some (some c)) →
    slotFor t.wheel c slot →
    u = askMemory .fetch (.read (0x1200 + 320 * d))
      { t with wheel := { t.wheel with
          cache := t.wheel.cache.set slot none
          fetch := some { code := c, progress := .reading d slot [] } } }

/-- R48: `u` is `s` with its fetch, if one is in progress, abandoned: the slot it was filling emptied, its request
withdrawn. -/
def fetchAbandoned (s u : State) : Prop :=
  (s.wheel.fetch = none → u = s) ∧
  (∀ c, s.wheel.fetch = some { code := c, progress := .waitingDirectory } →
    u = withdrawUser .fetch { s with wheel := { s.wheel with fetch := none } }) ∧
  (∀ c d slot b, s.wheel.fetch = some { code := c, progress := .reading d slot b } →
    u = withdrawUser .fetch
      { s with wheel := { s.wheel with fetch := none, cache := s.wheel.cache.set slot none } })

/-- R44, R48, R185: the bytes of a profile slot hold a valid profile. -/
def holdsProfile (bytes : List Byte) (p : Profile) : Prop :=
  let b (i : Nat) : Byte := bytes.getD i 0
  p.code = (b 0).toNat ∧ 1 ≤ p.code ∧ p.code ≤ 63 ∧ p.pitch.code = (b 1).toNat ∧
    p.spaceWidth = (b 2).toNat ∧ 6 ≤ p.spaceWidth ∧ p.spaceWidth ≤ 12 ∧
    p.underscore = (if b 3 = 0xFF then none else some (b 3).toNat) ∧ p.petals.length = 96 ∧
    (∀ i e, p.petals[i]? = some e →
      e.glyph = b (4 + 3 * i) ∧ (e.glyph = 0 ∨ isGlyphCode e.glyph = true) ∧
        e.width = (b (5 + 3 * i)).toNat ∧ 4 ≤ e.width ∧ e.width ≤ 18 ∧ 1 ≤ e.impression ∧ e.impression ≤ 5 ∧
        (b (6 + 3 * i)).toNat = e.impression + if e.accent then 128 else 0) ∧
    (∀ u, p.underscore = some u → ∃ e, p.petals[u]? = some e ∧ e.glyph ≠ 0 ∧ e.accent = false)

/-- A cell of the paper line, or its LINE-END cell. -/
def onEndedLine (cells : List Cell) (c : Cell) : Prop :=
  ∃ l e r, cells = l ++ e :: r ∧ e.kind = .lineEnd ∧ (∀ d ∈ l, d.kind ≠ .lineEnd) ∧ c ∈ l ++ [e]

/-- R12: the release unit of a cell is closed. -/
def unitCloses (s : State) (c : Cell) : Prop :=
  let holds (d : Cell) : Prop := ∃ id w, d.word = some id ∧
    s.spelling.words.find? (fun x => x.id == id) = some w ∧ w.holdMark = true ∧
    (w.state = .queued ∨ w.state = .checking ∨ w.state = .unknown ∧ w.accepted = false)
  let whole : Prop := onEndedLine s.line.cells c ∧
    ∃ r e, s.line.paper = some r ∧ r.releasedFlush = false ∧ r.ended = some e ∧ e.mode = .line
  (whole → ∃ d, onEndedLine s.line.cells d ∧ holds d) ∧ (¬whole → holds c)

/-- R132, R137: the bytes read of a user-word slot hold a word of these letters. -/
def slotHolds (bytes : List Byte) (letters : List Nat) : Prop :=
  2 ≤ letters.length ∧ letters.length ≤ 15 ∧ (bytes.getD 0 0).toNat = letters.length ∧
    ∀ i v, letters[i]? = some v → (bytes.getD (i + 1) 0).toNat = v ∧ 1 ≤ v ∧ v ≤ 59

/-- R132: how many bytes of a user-word slot are read, from its first four: those of its letters in whole
transactions, and four of a slot whose length is none of 2 to 15. -/
def slotReach (bytes : List Byte) : Nat :=
  let n := (bytes.getD 0 0).toNat
  if 2 ≤ n ∧ n ≤ 15 then 4 * ((n + 4) / 4) else 4

/-- R132: the lowest index entry from `k` on that holds a hash. -/
def lowestWith (index : List (Option Nat)) (hash k i : Nat) : Prop :=
  k ≤ i ∧ index[i]? = some (some hash) ∧ ∀ j, k ≤ j → j < i → index[j]? ≠ some (some hash)

/-- R7, R8, R111: L of the line on which a cell of the list stands: the paper line's where the cell is the first
LINE-END cell or stands before it, else the composing line's. -/
def lineLeft (s : State) (c : Cell) (left : Nat) : Prop :=
  (∀ before e after r, s.line.cells = before ++ e :: after → e.kind = .lineEnd →
    (∀ d ∈ before, d.kind ≠ .lineEnd) → s.line.paper = some r →
    left = if c ∈ before ++ [e] then r.leftMargin else s.line.composing.leftMargin) ∧
  ((∀ d ∈ s.line.cells, d.kind ≠ .lineEnd) → left = s.line.composing.leftMargin)

/-! ### Invariants -/

/-- R1, R177, R179: at most 96 key items and 8 replies wait, and no two reports of one kind. -/
def queuesBounded (s : State) : Prop :=
  s.composer.keyQueue.length ≤ 96 ∧ s.link.replies.length ≤ 8 ∧
    (s.link.reports.map fun e => e.kind).Nodup

/-- R10, R65, R130: at most 200 cells, 32 orders in the strike queue, 8 words in the check queue. -/
def listsBounded (s : State) : Prop :=
  s.line.cells.length ≤ 200 ∧ s.strikeQueue.length ≤ 32 ∧ s.spelling.checkQueue.length ≤ 8

/-- R119: a form watch within its values, its position aligned. -/
def watchAllowed (w : Watch) : Prop :=
  (w.span = 1 ∨ w.span = 2 ∨ w.span = 4 ∨ w.span = 8) ∧ w.position ≤ 1800 ∧ w.position % w.span = 0

/-- R118, R119: the tab stop set and the form watches within their values. -/
def zoneAllowed (z : ZoneMonitor) : Prop :=
  increasing z.tabStops = true ∧ z.tabStops.length ≤ 24 ∧ (∀ p ∈ z.tabStops, p ≤ 1800) ∧
    watchAllowed z.watch1 ∧ watchAllowed z.watch2

/-- R172, R173: the sounder's settings within their values, at most four one-shots waiting, none while
nothing plays, and neither while the continuous tone sounds. -/
def sounderAllowed (x : Sounder) : Prop :=
  x.volume ≤ 3 ∧ 400 ≤ x.frequency ∧ x.frequency ≤ 4000 ∧ x.frequency % 100 = 0 ∧ x.queue.length ≤ 4 ∧
    (x.playing = none → x.queue = []) ∧ (x.tone = true → x.playing = none ∧ x.queue = [])

/-- R143, R146: the display has 32 positions and its cursor stands in the text columns. -/
def displayAllowed (d : Display) : Prop := d.cells.length = 32 ∧ d.cursorColumn ≤ 27

/-- The serial memory's bytes in their canonical form. -/
def memoryCanonical (s : State) : Prop := s.chip.cells.wf = true

/-- R165: the values of a settings record. -/
def settingsAllowed (x : Settings) : Prop :=
  x.format.rightMargin ≤ 1800 ∧ x.format.leftMargin + 120 ≤ x.format.rightMargin ∧
    x.format.spacing ∈ [8, 12, 16, 20, 24] ∧ -2 ≤ x.format.impression ∧ x.format.impression ≤ 2 ∧
    1 ≤ x.format.speed ∧ x.format.speed ≤ 4 ∧ x.format.bellZone ≤ 120 ∧
    increasing x.tabStops = true ∧ x.tabStops.length ≤ 24 ∧ (∀ p ∈ x.tabStops, p ≤ 1800) ∧
    watchAllowed x.watch1 ∧ watchAllowed x.watch2 ∧
    x.composites.length ≤ 32 ∧ (∀ c ∈ x.composites, c.allowed = true) ∧
    (x.composites.map fun c => c.code).Nodup ∧
    x.contrast ≤ 15 ∧ x.volume ≤ 3 ∧ x.mask.toNat < 2048

end Sys2Proof
end

