-- ==== Sys2Proof/Certificates/Slice0/Obligations.lean ====
section
/-!
DEFINITION. The statements for the provers. `hunt s` is `s` with the framer returned to HUNTING; `reply k t (u, a)`
is `u` with the reply `a` to a request of kind `k` and tag `t` joined to the reply queue and the line's choice
made (`Obligations.line_sends_replies_before_reports`); `raise` is the report queue's taking of an event
(`Obligations.report_queue_coalesces_by_kind`); `textEvent u` is `u` at the end of a text event, after which
all that `besideText` shows is as it was in `u` (`Obligations.end_of_text_event_leaves_the_rest`).
-/

open Sys2Proof Sys2Proof.Machine

/-! ### The step -/

/-- One step runs the command at the front of the queue, with the queue's rest; with no command waiting, the event
that is due happens, or a tenth of a millisecond passes (log entry 3). -/
def Obligations.step_runs_the_front_command_or_idles : Prop :=
  (∀ (c : Instr) (rest : List Instr) (s : State), s.pending = c :: rest →
     step s = exec c { s with pending := rest }) ∧
  (∀ s : State, s.pending = [] →
     (∀ c, dueCommand s = some c → step s = exec c { s with fresh := s.fresh + 1 }) ∧
       (dueCommand s = none → step s = .next { s with now := s.now + 1 }))

/-- R157 through log entry 14: a command stops in one way alone, where the transaction that ends lies outside
the memory. -/
def Obligations.only_a_transaction_past_the_end_of_memory_stops : Prop :=
  ∀ (c : Instr) (s : State),
    (c = .transactionEnd ∧ s.memory.detection = .none ∧ transactionWithin s = false →
      exec c s = .fault .pastEndOfMemory) ∧
    (¬(c = .transactionEnd ∧ s.memory.detection = .none ∧ transactionWithin s = false) →
      ∃ t, exec c s = .next t)

/-! ### Reset (R25, R58, R83, R96, R110, R123, R142, R154, R155, R168, R174, R182, R183) -/

/-- The RESET pin puts every block at its reset values in the event of its assertion, whatever stood before;
while the pin is low nothing is sent, and when it rises the line chooses its first frame.
A RESET request is answered OK and leaves reset pending set; the reset takes place in the event in which that
reply has gone, with the protect level unchanged. That the ENGINE event of a reset is raised before its SPELL event
(log entry 1), and that a pin already at the level given changes nothing (log entry 3), are the model's choices. -/
def Obligations.reset_pin_and_reset_request_reset_every_block : Prop :=
  (∀ s : State,
     (s.pins.resetLow = false →
       ∃ t, exec .resetPin s = .next t ∧ standsAfterReset 3 s.now s t ∧
         t.pins = { s.pins with resetLow := true } ∧ t.link.transmit = none ∧ t.now = s.now ∧
         t.link.reports.map (fun e => (e.kind, e.occurrences, e.reason)) = [(.engine, 1, 0), (.spell, 1, 3)]) ∧
     (s.pins.resetLow = true →
       exec .resetPin s = .next s ∧
       ∃ t, exec .resetPinRelease s = .next t ∧
         (∀ e es, s.link.transmit = none → s.link.replies = [] → s.link.resetPending = false →
           s.link.reports = e :: es →
           ∃ f, t =
             { s with
               pins := { s.pins with resetLow := false },
               link := { s.link with
                 reports := es
                 transmit := some { frame := f, ends := s.now + lineTime s.link.rate (5 + f.body.length) } } } ∧
             f.kind = 0xFD ∧ f.tag = byte e.occurrences)) ∧
     (s.pins.resetLow = false → exec .resetPinRelease s = .next s)) ∧
  (∀ (tag : Byte) (s : State),
     (hears s →
       exec (.reset tag []) s =
         .next (reply 0x7F tag
           ({ hunt s with link := { (hunt s).link with resetPending := true } }, { status := .ok, data := [] }))) ∧
     (∀ x, s.link.transmit = some x → s.link.resetPending = true → x.frame.kind = 0xFF →
       x.frame.body = [0] → s.pins.resetLow = false →
       ∃ t, exec .frameSent s = .next t ∧
         standsAfterReset s.memory.protect (max s.now x.ends) s t ∧
         t.pins = s.pins ∧ t.now = max s.now x.ends))

/-- The state after reset holds the values the reset rules give, and every invariant below. -/
def Obligations.state_after_reset_holds_the_reset_values : Prop :=
  (standsAfterReset 3 0 State.reset State.reset ∧ State.reset.pending = []) ∧
  (queuesBounded State.reset ∧ memoryCanonical State.reset ∧ zoneAllowed State.reset.zone ∧
     sounderAllowed State.reset.sounder ∧ displayAllowed State.reset.display ∧ listsBounded State.reset)

/-! ### The transmit line and the report queue (R177, R179, R181) -/

/-- When a frame that is not the reply of an accepted RESET ends, the oldest waiting reply goes; else the report at
the head, its body assembled then:
kind code, reason, detail, current state, cut at 56 bytes; else the line is idle.
A reply carries 0x80 more than the request's kind, the request's tag, the status code and the data; it goes
at once where the line is idle and nothing waits, and otherwise stands at the tail of the reply queue. -/
def Obligations.line_sends_replies_before_reports : Prop :=
  (∀ (s : State) (x : Sending), s.link.transmit = some x → s.pins.resetLow = false →
     let now := max s.now x.ends
     (∀ r rs, s.link.replies = r :: rs → (s.link.resetPending = false ∨ x.frame.kind ≠ 0xFF ∨ x.frame.body ≠ [0]) →
       exec .frameSent s =
         .next { s with
           now := now
           link := { s.link with
             replies := rs
             transmit := some
               { frame := r, ends := now + lineTime s.link.rate (5 + r.body.length) } } }) ∧
     (∀ e es, s.link.replies = [] → s.link.resetPending = false → s.link.reports = e :: es →
       ∃ f, f.kind = 0xFD ∧ f.tag = byte e.occurrences ∧
         f.body =
           ([byte (0x81 + e.kind.index), byte e.reason] ++ e.detail ++ currentState s e.kind).take 56 ∧
         exec .frameSent s =
           .next { s with
             now := now
             link := { s.link with
               reports := es
               transmit := some
                 { frame := f, ends := now + lineTime s.link.rate (5 + f.body.length) } } }) ∧
     (s.link.replies = [] → s.link.resetPending = false → s.link.reports = [] →
       exec .frameSent s = .next { s with now := now, link := { s.link with transmit := none } })) ∧
  (∀ (kind tag : Byte) (a : Answer) (u : State), u.pins.resetLow = false →
     let f : OutFrame := { kind := 0x80 + kind, tag := tag, body := byte a.status.code :: a.data }
     (u.link.transmit = none → u.link.replies = [] →
       reply kind tag (u, a) =
         { u with link := { u.link with
             transmit := some { frame := f, ends := u.now + lineTime u.link.rate (6 + a.data.length) } } }) ∧
     (u.link.transmit ≠ none →
       reply kind tag (u, a) = { u with link := { u.link with replies := u.link.replies ++ [f] } }) ∧
     (∀ r rs, u.link.transmit = none → u.link.replies = r :: rs →
       reply kind tag (u, a) =
         { u with link := { u.link with
             replies := rs ++ [f]
             transmit := some { frame := r, ends := u.now + lineTime u.link.rate (5 + r.body.length) } } }))

/-- R179's table: a masked event changes nothing; an event whose kind has an entry adds one to its occurrences,
saturating at 255, and replaces its reason and detail, the entry keeping its place; any other is appended.
The table of the report kinds: the current state that each adds at its sending. That a WHEEL report carries 0 where no
profile is active is the model's choice (log entry 9), and the order of the codes is read from the rules (log entry
8). -/
def Obligations.report_queue_coalesces_by_kind : Prop :=
  (∀ (k : ReportKind) (reason : Nat) (detail : List Byte) (s : State),
    (s.link.mask.getLsbD k.index = false → raise k reason detail s = s) ∧
    (s.link.mask.getLsbD k.index = true → (∀ e ∈ s.link.reports, e.kind ≠ k) →
      raise k reason detail s =
        { s with link := { s.link with reports :=
            s.link.reports ++ [{ kind := k, occurrences := 1, reason := reason, detail := detail }] } }) ∧
    (∀ before e after, s.link.mask.getLsbD k.index = true → s.link.reports = before ++ e :: after →
      e.kind = k → (∀ d ∈ before ++ after, d.kind ≠ k) →
      raise k reason detail s =
        { s with link := { s.link with reports :=
            before ++
              { kind := k, occurrences := min 255 (e.occurrences + 1), reason := reason, detail := detail } ::
              after } })) ∧
  (∀ s : State,
    let adds := currentState s
    let wheel (active : Byte) : List Byte := [byte s.wheel.mounted, active, byte s.wheel.resolution.code]
    adds .start = [] ∧
    adds .engine = [byte s.engine.state.code, byte s.engine.state.reasonCode] ++ carriageBytes s.engine.carriage ++
      [(s.engine.wheelPosition.map byte).getD 0xFF, byte s.strikeQueue.length] ∧
    adds .line = [byte s.line.cells.length] ++ be16 s.composer.printPoint ∧
    adds .lift = [byte s.strikeQueue.length] ∧
    adds .spell = [byte s.spelling.unit.code, byte s.spelling.checkQueue.length,
      byte (s.spelling.words.countP fun w => w.state = .unknown ∧ w.accepted = false)] ∧
    adds .zone = be16 s.composer.printPoint ∧
    adds .sensor = [.cover, .paper, .tape, .ribbon].map (fun i => if s.sensors.isOpen i then 0 else 1) ∧
    adds .supply = [byte s.impression.band.code, byte (effectiveSpeed s.composer.format.speed s.impression.band)] ∧
    adds .memory = [byte s.memory.state.code, byte s.memory.protect, if s.memory.downloadOpen then 1 else 0] ∧
    (∀ p, activeProfile s.wheel = some p → adds .wheel = wheel (byte p.code)) ∧
    (activeProfile s.wheel = none → adds .wheel = wheel 0) ∧
    adds .key = [byte (96 - s.composer.keyQueue.length)])

/-! ### Frames received (R175 to R178) -/

/-- A frame complete while 8 replies wait, while a reset is pending or while the RESET pin is low is handed to no
block and draws no reply; a request of fixed length with another body length is answered BAD-VALUE.
A bad byte inside a frame, and the expiry of the gap timer, discard the frame in hand with no reply; what a
frame that fails checking draws is a NAK of kind 0xFE with the received tag, or 0 for BAD-LENGTH; and a kind that
names no request is answered UNKNOWN-KIND. That NAK_BAD_LENGTH of a length of 56 or less (log entry 2), and BAD_BYTE
and GAP_TIMER with no frame and no gap timer to act on (log entry 3), change nothing are the model's choices. -/
def Obligations.frames_are_discarded_judged_or_draw_a_nak : Prop :=
  (∀ (c : Instr) (s : State), ((c.frame).isSome ∨ ∃ k t b, c = .unknownKind k t b) → ¬hears s →
     exec c s = .next { s with link := { s.link with framer := .hunting, frame := .clear, gap := none } }) ∧
  (∀ (c : Instr) (k t : Byte) (b : List Byte) (n : Nat) (s : State),
     c.frame = some (k, t, b) → fixedLength k = some n → b.length ≠ n → hears s →
     exec c s = .next (reply k t (hunt s, { status := .badValue, data := [] }))) ∧
  (∀ (k t n : Byte) (s : State), ¬hears s →
     let dropped : State :=
       { s with link := { s.link with framer := .hunting, frame := .clear, gap := none } }
     exec (.nakBadCheck k t) s = .next dropped ∧
     (k = 0x7D ∨ k = 0x7E ∨ 0x80 ≤ k.toNat → exec (.nakBadKind k t) s = .next dropped) ∧
     (57 ≤ n.toNat → exec (.nakBadLength n) s = .next dropped) ∧
     (n.toNat ≤ 56 → exec (.nakBadLength n) s = .next s) ∧
     (s.pins.resetLow = true → exec (.byteReceived n) s = .next s)) ∧
  (∀ s : State,
     let dropped (n : Nat) : State :=
       { s with now := n, link := { s.link with framer := .hunting, frame := .clear, gap := none } }
     (s.link.framer ≠ .hunting → exec .badByte s = .next (dropped s.now)) ∧
     (s.link.framer = .hunting → exec .badByte s = .next s) ∧
     (∀ t, s.link.gap = some t → exec .gapTimer s = .next (dropped (max s.now t))) ∧
     (s.link.gap = none → exec .gapTimer s = .next s)) ∧
  (∀ (k t n : Byte) (b : List Byte) (s : State), hears s →
     let nak (tag : Byte) (body : List Byte) : State :=
       chooseFrame { hunt s with link := { (hunt s).link with replies :=
         s.link.replies ++ [{ kind := 0xFE, tag := tag, body := body }] } }
     exec (.nakBadCheck k t) s = .next (nak t [0x01, k]) ∧
     (57 ≤ n.toNat → exec (.nakBadLength n) s = .next (nak 0 [0x02])) ∧
     (k = 0x7D ∨ k = 0x7E ∨ 0x80 ≤ k.toNat → exec (.nakBadKind k t) s = .next (nak t [0x03, k])) ∧
     (kindIsBad k = false → kindIsRequest k = false →
       exec (.unknownKind k t b) s = .next (reply k t (hunt s, { status := .unknownKind, data := [] }))))

/-- R175's table, byte by byte: each byte moves the framer on and starts the 20 ms gap timer.
The bytes of a frame, received one after another in HUNTING, have the effect of the command that the
frame is: the request, UNKNOWN_KIND, NAK_BAD_KIND, or NAK_BAD_CHECK when the check byte is another. -/
def Obligations.framer_takes_bytes_and_hands_on_frames : Prop :=
  (∀ (x : Byte) (s : State), s.pins.resetLow = false →
     let f := s.link.frame
     let taken (x' : FramerState) (g : FrameInHand) : State :=
       { s with link := { s.link with framer := x', frame := g, gap := some (s.now + 200) } }
     (s.link.framer = .hunting → x = 0xA5 → exec (.byteReceived x) s = .next (taken .length .clear)) ∧
     (s.link.framer = .hunting → x ≠ 0xA5 → exec (.byteReceived x) s = .next s) ∧
     (s.link.framer = .length → x.toNat ≤ 56 →
       exec (.byteReceived x) s = .next (taken .kind { f with length := x.toNat, sum := x })) ∧
     (s.link.framer = .length → 57 ≤ x.toNat →
       exec (.byteReceived x) s = exec (.nakBadLength x) s) ∧
     (s.link.framer = .kind →
       exec (.byteReceived x) s = .next (taken .tag { f with kind := x, sum := f.sum + x })) ∧
     (s.link.framer = .tag → f.length = 0 →
       exec (.byteReceived x) s = .next (taken .check { f with tag := x, sum := f.sum + x })) ∧
     (s.link.framer = .tag → f.length ≠ 0 →
       exec (.byteReceived x) s = .next (taken .body { f with tag := x, sum := f.sum + x })) ∧
     (s.link.framer = .body → f.body.length + 1 < f.length →
       exec (.byteReceived x) s = .next (taken .body { f with body := f.body ++ [x], sum := f.sum + x })) ∧
     (s.link.framer = .body → f.length = f.body.length + 1 →
       exec (.byteReceived x) s = .next (taken .check { f with body := f.body ++ [x], sum := f.sum + x }))) ∧
  (∀ (k t : Byte) (b : List Byte) (s : State),
     b.length ≤ 56 → s.link.framer = .hunting → s.pins.resetLow = false →
     (∀ c : Instr, c.frame = some (k, t, b) → receive (frameBytes k t b (frameCheck k t b)) s = exec c s) ∧
     (kindIsBad k = true → receive (frameBytes k t b (frameCheck k t b)) s = exec (.nakBadKind k t) s) ∧
     (kindIsBad k = false → kindIsRequest k = false →
       receive (frameBytes k t b (frameCheck k t b)) s = exec (.unknownKind k t b) s) ∧
     (∀ x, x ≠ frameCheck k t b → receive (frameBytes k t b x) s = exec (.nakBadCheck k t) s))

/-! ### The end of an event, and what waits (R3, R9, R11, R12, R120) -/

/-- The end of every event of the text path, part after part, in an order that is the model's choice (log entry 11; the
order of the reports raised at the end of one event rests on it): the strike queue and the engine settle
(`Obligations.group_start_is_judged_in_five_steps`), a lookup may begin
(`Obligations.lookup_advances_read_by_read`), the Composer judges its head item
(`Obligations.head_item_waits_as_listed`), the arbiter grants
(`Obligations.arbiter_grants_the_oldest_of_the_highest_level`), the display renders
(`Obligations.render_shows_the_window_and_the_status`), and in an event that is no request the line chooses its next
frame (`Obligations.line_sends_replies_before_reports`).
Its frame: it changes no more than `besideText` blanks, and of the cells no more than their state, strikes, word and
flags, or that some have left the list. -/
def Obligations.end_of_text_event_leaves_the_rest : Prop :=
  ∀ s : State,
    textEnd s = render (grant (judgeHead (beginLookup (settle s)))) ∧
      textEvent s = chooseFrame (textEnd s) ∧
      besideText (textEnd s) = besideText s ∧
      ((textEnd s).line.cells.map fixedPart).Sublist (s.line.cells.map fixedPart)

/-- The four wait conditions of R3, as the Composer judges its head item; an item that waits is not taken. Two points
are the model's choices: a command whose item is not at the head changes nothing (log entry 3), and a glyph item whose
wrap R33 would refuse waits while a LINE-END cell exists (log entry 11). R120, R112: the detail of WATCH-HOLD (layout:
log entry 9; `matched` is stated in `Obligations.glyph_item_creates_a_cell_or_is_refused`), and which watch acts on a
subject: watch 1 where both would. -/
def Obligations.head_item_waits_as_listed : Prop :=
  (∀ (s : State) (code : Byte) (rest : List Byte), s.composer.keyQueue = code :: rest →
     let w := waitsFor s code
     let glyph := isGlyphCode code = true
     let space := code = 0x20
     let subject (start stop : Nat) : Prop :=
       (space ∧ ∃ a b, placeSpace s = .create start a b ∧ stop = start + a) ∨
       (glyph ∧ ∃ k a, stop = start + a ∧
         ((∃ b, placeGlyph s code = .create k start a b) ∨ placeGlyph s code = .wrap k start a))
     let wraps : Prop := glyph ∧ ∃ k start a, placeGlyph s code = .wrap k start a
     (w.backpressure = true ↔ s.composer.format.spelling ≠ .off ∧ 8 ≤ s.spelling.checkQueue.length) ∧
     (w.secondLineEnd = true ↔ (∃ c ∈ s.line.cells, c.kind = .lineEnd) ∧
       (code = 0x0D ∨ glyph ∧ ∃ start a,
         (∃ k, placeGlyph s code = .wrap k start a) ∨ placeGlyph s code = .wrapRefused start a)) ∧
     (w.noWheel = true ↔ (glyph ∨ space) ∧ s.wheel.active = none) ∧
     (w.watchHold = true ↔ s.wheel.active ≠ none ∧ s.zone.holdPass = false ∧
       ∃ start stop, subject start stop ∧ ∃ x, (x = s.zone.watch1 ∨ x = s.zone.watch2) ∧
         x.enabled = true ∧ x.kind = .hold ∧ start < x.position + x.span ∧
         x.position ≤ (if start < stop then stop - 1 else start)) ∧
     (w.any = true → exec (itemCommand code) s = .next (textEvent s)) ∧
     (∀ c ∈ ([.glyphItem, .spaceItem, .tabItem, .returnItem, .backspaceItem, .relocateItem, .boldItem,
         .underlineItem, .marginReleaseItem, .correctItem, .wordCorrectItem, .unassignedItem] : List Instr),
       c ≠ itemCommand code → exec c s = .next s) ∧
     (w.watchHold = false ∨ s.zone.holdNoted = true →
       judgeHead s = { s with composer := { s.composer with waits := w } }) ∧
     (w.watchHold = true → s.zone.holdNoted = false →
       ∃ acting left start stop, subject start stop ∧ actingWatch s.zone .hold start stop = some acting ∧
         (wraps → left = s.composer.format.leftMargin) ∧ (¬wraps → left = s.line.composing.leftMargin) ∧
         judgeHead s = raise .zone 4
           ([byte acting, byte (matched s left start stop)] ++ be16 start ++ be16 stop ++
             be16 s.composer.printPoint ++ [code])
           { s with
             composer := { s.composer with waits := w }
             zone := { s.zone with holdNoted := true } })) ∧
  (∀ (z : ZoneMonitor) (kind : WatchKind) (start stop : Nat),
     let acts (x : Watch) : Prop := x.enabled = true ∧ x.kind = kind ∧ start < x.position + x.span ∧
       x.position ≤ (if start < stop then stop - 1 else start)
     (acts z.watch1 → actingWatch z kind start stop = some 3) ∧
     (¬acts z.watch1 → acts z.watch2 → actingWatch z kind start stop = some 4) ∧
     (¬acts z.watch1 → ¬acts z.watch2 → actingWatch z kind start stop = none))

/-! ### Requests of the text path (R2, R16, R22 to R24, R64, R79, R81, R82, R108, R118, R119, R121) -/

/-- TYPE: all items or none, by the room in the key queue alone. -/
def Obligations.type_request_takes_all_items_or_none : Prop :=
  ∀ (tag : Byte) (body : List Byte) (s : State), hears s →
    let room := 96 - s.composer.keyQueue.length
    (body.length = 0 ∨ 48 < body.length →
      exec (.type tag body) s = .next (reply 0x01 tag (hunt s, { status := .badValue, data := [] }))) ∧
    (1 ≤ body.length → body.length ≤ 48 → body.length ≤ room →
      exec (.type tag body) s =
        .next (reply 0x01 tag
          (judgeHead { hunt s with composer :=
              { s.composer with keyQueue := s.composer.keyQueue ++ body } },
            { status := .ok, data := [byte (room - body.length)] }))) ∧
    (1 ≤ body.length → body.length ≤ 48 → room < body.length →
      exec (.type tag body) s =
        .next (reply 0x01 tag (hunt s, { status := .queueFull, data := [byte room] })))

/-- RELEASE: with no LINE-END cell the composing line is made released-flush, the mark moves to its last cell
and the release advance runs; with one, the mark moves to it if it stands before it; an empty list is left.
R12, R134: the release advance makes the HELD cells up to the mark PENDING, and stops before the first that belongs
to a closed release unit: the whole of a paper line ended in LINE mode, or else a word, that holds a cell of a
hold-marked word QUEUED, CHECKING, or UNKNOWN and not accepted. -/
def Obligations.release_request_releases_the_carriage_line : Prop :=
  (∀ (tag : Byte) (s : State), hears s →
    let h := hunt s
    let answered (u : State) : Host.Outcome State Fault Refusal :=
      .next (reply 0x02 tag (textEnd u, { status := .ok, data := [] }))
    (s.line.cells = [] → exec (.release tag []) s = answered h) ∧
    (∀ before c, s.line.cells = before ++ [c] → (∀ d ∈ s.line.cells, d.kind ≠ .lineEnd) →
      exec (.release tag []) s =
        answered (releaseAdvance { h with line :=
          { s.line with
            releaseMark := some c.id
            composing := { s.line.composing with releasedFlush := true } } })) ∧
    (∀ before e after, s.line.cells = before ++ e :: after → e.kind = .lineEnd →
      (∀ d ∈ before, d.kind ≠ .lineEnd) → (s.line.cells.map (·.id)).Nodup →
      ((s.line.releaseMark = none ∨ ∃ d ∈ before, s.line.releaseMark = some d.id) →
        exec (.release tag []) s =
          answered (releaseAdvance { h with line := { s.line with releaseMark := some e.id } })) ∧
      ((∃ d ∈ e :: after, s.line.releaseMark = some d.id) → exec (.release tag []) s = answered h))) ∧
  (∀ s : State,
     let advanced (cells : List Cell) : State := { s with line := { s.line with cells := cells } }
     let pend (c : Cell) : Cell := if c.state = .held then { c with state := .pending } else c
     let stops (c : Cell) : Prop := c.state = .held ∧ unitCloses s c
     (s.line.releaseMark = none → releaseAdvance s = s) ∧
     (∀ before c after, s.line.cells = before ++ c :: after → s.line.releaseMark = some c.id →
       (s.line.cells.map (·.id)).Nodup →
       ((∀ d ∈ before ++ [c], ¬stops d) → releaseAdvance s = advanced ((before ++ [c]).map pend ++ after)) ∧
       (∀ l d r, before ++ [c] = l ++ d :: r → stops d → (∀ e ∈ l, ¬stops e) →
         releaseAdvance s = advanced (l.map pend ++ d :: r ++ after))))

/-- STOP: the key queue is emptied, the attributes and the arm cleared, every group that has not started
leaves the strike queue, the cells go back, the mark, the deferred lift and the waiting lifts are given up.
That a group interrupted and waiting at its resumption counts as started is the model's choice (log entry 23). -/
def Obligations.stop_request_gives_up_what_has_not_started : Prop :=
  ∀ (tag : Byte) (s : State) (going waiting : List Order), hears s →
    s.strikeQueue = going ++ waiting →
    (s.engine.groupStarted = false → going = []) →
    (s.engine.groupStarted = true →
      ∃ body last, going = body ++ [last] ∧ last.last = true ∧ ∀ o ∈ body, o.last = false) →
    let gone (c : Cell) : Prop := (∃ o ∈ waiting, o.cell = c.id) ∧ ∀ o ∈ going, o.cell ≠ c.id
    ∃ after : Cell → Cell,
      (∀ c, c.state = .held ∨ c.state = .struck → after c = c) ∧
      (∀ c, c.state = .pending → after c = { c with state := .held }) ∧
      (∀ c, c.state = .ordered → gone c → after c = { c with state := .held }) ∧
      (∀ c, c.state = .lifting → gone c → after c = { c with state := .struck }) ∧
      (∀ c, c.state = .ordered ∨ c.state = .lifting → ¬gone c → after c = c) ∧
      exec (.stop tag []) s =
        .next (reply 0x03 tag (textEnd
          { hunt s with
            strikeQueue := going
            engine := { s.engine with groupWait := none }
            composer := { s.composer with
              keyQueue := [], waits := .clear, bold := false, underline := false, marginRelease := false }
            line := { s.line with cells := s.line.cells.map after, releaseMark := none }
            correction := { deferred := none, waiting := [] }
            zone := { s.zone with holdPass := false, holdNoted := false } },
          { status := .ok, data := [] }))

/-- RESUME: it ends a paper pause where paper shows; it grants the hold pass to an item that a HOLD watch
holds, and takes that item where no other wait stands; with neither to do it is answered NOT-READY. -/
def Obligations.resume_request_ends_a_paper_pause_or_a_hold : Prop :=
  ∀ (tag : Byte) (s t : State), hears s →
    let h := hunt s
    let pause := s.engine.state = .paused .paper ∧ s.sensors.paper.debounced = .closed
    let held := ∃ code rest, s.composer.keyQueue = code :: rest ∧ (waitsFor s code).watchHold = true
    let answered (u : State) : Host.Outcome State Fault Refusal :=
      .next (reply 0x04 tag (textEnd u, { status := .ok, data := [] }))
    (¬pause → t = h) →
    (pause → t =
      raise .engine (if s.strikeQueue = [] then 3 else 4) [0]
        { h with engine :=
          { s.engine with
            state := if s.strikeQueue = [] then .ready else .running
            groupWait := none } }) →
    (¬pause → ¬held →
      exec (.resume tag []) s = .next (reply 0x04 tag (h, { status := .notReady, data := [] }))) ∧
    (pause → ¬held → exec (.resume tag []) s = answered t) ∧
    (∀ code rest, s.composer.keyQueue = code :: rest → (waitsFor s code).watchHold = true →
      (((waitsFor s code).backpressure = true ∨ (waitsFor s code).secondLineEnd = true) →
        exec (.resume tag []) s = answered { t with zone := { s.zone with holdPass := true } }) ∧
      ((waitsFor s code).backpressure = false → (waitsFor s code).secondLineEnd = false →
        exec (.resume tag []) s = answered
          (rearmAfter s.composer.printPoint
            ((if code = 0x20 then takeSpace else takeGlyph) code
              { t with
                composer := { s.composer with keyQueue := rest, waits := .clear }
                display := { s.display with overlay := none }
                zone := { s.zone with holdPass := false, holdNoted := false } }))))

/-- HOME by its table: NOT-READY with the cover open, in UNHOMED and in RUNNING; OK in HOMING; in every other state
homing begins and the strike queue stands. FEED: BUSY while the feed motion is in progress; NOT-READY unless the
engine is READY and no cell is PENDING or ORDERED; otherwise the STRUCK cells of the carriage's line leave the
list, LINE (FEED) carries the clamped units, and the motion begins unless they are 0. That a FEED of 0 units starts
no motion, and that HOME leaves a feed motion in progress, are the model's choices (log entry 18). That a word that loses
cells raises its SPELL before LINE is an inference (log entry 36). -/
def Obligations.home_and_feed_requests_by_their_tables : Prop :=
  (∀ (tag : Byte) (s : State), hears s →
     let h := hunt s
     (s.sensors.cover.debounced = .opened ∨ s.engine.state = .unhomed ∨ s.engine.state = .running →
       exec (.home tag []) s = .next (reply 0x05 tag (h, { status := .notReady, data := [] }))) ∧
     (s.sensors.cover.debounced = .closed → s.engine.state = .homing →
       exec (.home tag []) s = .next (reply 0x05 tag (h, { status := .ok, data := [] }))) ∧
     (s.sensors.cover.debounced = .closed →
       (s.engine.state = .identifying ∨ s.engine.state = .ready ∨ s.engine.state = .paused .paper ∨
         s.engine.state = .paused .supply ∨ ∃ r, s.engine.state = .faulted r) →
       exec (.home tag []) s =
         .next (reply 0x05 tag
           (render (raise .engine 1 [0]
             { h with engine :=
               { s.engine with
                 state := .homing, homing := some .carriageSearch, homingTravel := 0,
                 homingLimit := some (s.now + 7750), carriage := none, wheelPosition := none, order := none,
                 groupWait := none, faultDetail := none } }),
             { status := .accepted, data := [] })))) ∧
  (∀ (tag b : Byte) (s : State), hears s →
     let h := hunt s
     let still := ∀ c ∈ s.line.cells, c.state ≠ .pending ∧ c.state ≠ .ordered
     let units : Int := if b.toInt < -96 then -96 else if 96 < b.toInt then 96 else b.toInt
     (s.engine.feed ≠ none →
       exec (.feed tag [b]) s = .next (reply 0x06 tag (h, { status := .busy, data := [] }))) ∧
     (s.engine.feed = none → s.engine.state ≠ .ready ∨ ¬still →
       exec (.feed tag [b]) s = .next (reply 0x06 tag (h, { status := .notReady, data := [] }))) ∧
     (s.engine.feed = none → s.engine.state = .ready → still →
       (s.line.cells.map (·.id)).Nodup →
       ∃ struck : Cell → Bool,
         (∀ c ∈ s.line.cells, struck c = true ↔
           c.state = .struck ∧ (hasLineEnd s.line.cells = true → c ∈ endedCells s.line.cells)) ∧
         let removed := raise .line 1 [BitVec.ofInt 8 units] (removeCells false struck h)
         exec (.feed tag [b]) s =
           .next (reply 0x06 tag
             (textEnd { removed with engine :=
                 { removed.engine with feed := if units = 0 then none else some units } },
               { status := .ok, data := [] }))))

/-- SET-FORMAT: the checks in the order of the fields, the first of which that fails gives the reply with nothing
changed; that the surplus presence bits are judged before the fields is the model's choice (log entry 17). Then the
change of every present field, clamped where the field is clamped, and what follows at once: the left margin of an
empty line, the bell, the group wait, and, where the spelling mode changes, the words and the lookup (R134), after
which the release advance runs. -/
def Obligations.set_format_request_is_judged_whole : Prop :=
  ∀ (tag : Byte) (body : List Byte) (s : State), hears s → body.length = 15 →
    let h := hunt s
    let f := s.composer.format
    let line := composingCells s.line.cells
    let has (n : Nat) : Prop := (at16 body 0).testBit n = true
    let left := if (at16 body 0).testBit 1 then at16 body 3 else f.leftMargin
    let right := if (at16 body 0).testBit 2 then min (at16 body 5) 1800 else f.rightMargin
    let pitchValue : Prop := has 0 → at8 body 2 ∈ [10, 12, 15, 0]
    let pitchFree : Prop := has 0 → at8 body 2 ≠ f.pitch.code → line = []
    let apart : Prop := (left ≠ f.leftMargin ∨ right ≠ f.rightMargin → left + 120 ≤ right) ∧
      (right ≠ f.rightMargin → line ≠ [] → s.composer.printPoint ≤ right)
    let middleValues : Prop := (has 3 → 2 ≤ at8 body 7 ∧ at8 body 7 ≤ 6) ∧ (has 4 → at8 body 8 ≤ 3) ∧
      (has 5 → at8 body 9 ≤ 2)
    let modeFree : Prop := has 5 → at8 body 9 ≠ f.mode.code → ∀ c ∈ s.line.cells, c.state ≠ .held
    let lastValues : Prop := (has 6 → at8 body 10 ≤ 1) ∧ (has 7 → at8 body 11 ≤ 2)
    let refused (x : Status) : Prop :=
      exec (.setFormat tag body) s = .next (reply 0x10 tag (h, { status := x, data := [] }))
    (2048 ≤ at16 body 0 → refused .badValue) ∧
    (at16 body 0 < 2048 →
      (¬pitchValue → refused .badValue) ∧
      (pitchValue → ¬pitchFree → refused .lineOpen) ∧
      (pitchValue → pitchFree → ¬(apart ∧ middleValues) → refused .badValue) ∧
      (pitchValue → pitchFree → apart → middleValues → ¬modeFree → refused .heldText) ∧
      (pitchValue → pitchFree → apart → middleValues → modeFree → ¬lastValues → refused .badValue)) ∧
    (at16 body 0 < 2048 → pitchValue → pitchFree → apart → middleValues → modeFree → lastValues →
      ∃ g u, exec (.setFormat tag body) s =
          .next (reply 0x10 tag (textEnd u, { status := .ok, data := [] })) ∧
        g.pitch.code = (if (at16 body 0).testBit 0 then at8 body 2 else f.pitch.code) ∧
        g.leftMargin = left ∧ g.rightMargin = right ∧
        g.spacing = (if (at16 body 0).testBit 3 then 4 * at8 body 7 else f.spacing) ∧
        g.alignment.code = (if (at16 body 0).testBit 4 then at8 body 8 else f.alignment.code) ∧
        g.mode.code = (if (at16 body 0).testBit 5 then at8 body 9 else f.mode.code) ∧
        boolCode g.wrap = (if (at16 body 0).testBit 6 then at8 body 10 else boolCode f.wrap) ∧
        g.spelling.code = (if (at16 body 0).testBit 7 then at8 body 11 else f.spelling.code) ∧
        g.impression =
          (if (at16 body 0).testBit 8 then max (-2) (min 2 (body.getD 12 0).toInt) else f.impression) ∧
        g.speed = (if (at16 body 0).testBit 9 then max 1 (min 4 (at8 body 13)) else f.speed) ∧
        g.bellZone = (if (at16 body 0).testBit 10 then min (at8 body 14) 120 else f.bellZone) ∧
        let relatches : Prop := left ≠ f.leftMargin ∧ s.line.cells = []
        let p := if relatches then left else s.composer.printPoint
        let rearms : Prop := (p ≠ s.composer.printPoint ∨ right ≠ f.rightMargin ∨ g.bellZone ≠ f.bellZone) ∧
          p < right - g.bellZone
        let toOff : Prop := f.spelling ≠ .off ∧ g.spelling = .off
        let unmarked (w : Word) : Word :=
          if f.spelling = .hold ∧ g.spelling ≠ .hold then { w with holdMark := false } else w
        let skipped (w : Word) : Word :=
          if w.state = .queued ∨ w.state = .checking then { w with state := .skipped, skip := none } else w
        let words := s.spelling.words.map unmarked
        let v : State := { h with
          composer := { s.composer with format := g, printPoint := p }
          line := if relatches then
            { s.line with composing := { s.line.composing with leftMargin := left } } else s.line
          zone := if rearms then { s.zone with bellArmed := true } else s.zone
          engine := { s.engine with
            groupWait := if effectiveSpeed g.speed s.impression.band = s.effectiveSpeed
              then s.engine.groupWait else none }
          spelling := if toOff then
            { s.spelling with words := words.map skipped, checkQueue := [], lookup := none }
          else { s.spelling with words := words } }
        u = if g.spelling = f.spelling then v
          else if toOff then releaseAdvance (withdrawUser .lookup v) else releaseAdvance v)

/-- SET-TABS: ADD, REMOVE and CLEAR over the increasing stop set, and the refusals; no count stands before the
positions (log entry 9), and a body without an operation byte is BAD-VALUE, as is a byte left over (log entry 17).
SET-WATCH: all four fields of one watch replaced, the position aligned down, and the head item judged again; or BAD-VALUE and nothing changed. -/
def Obligations.set_tabs_and_set_watch_requests : Prop :=
  (∀ (tag op : Byte) (l new : List Nat) (s : State), hears s →
     s.zone.tabStops.Pairwise (· < ·) → new.Pairwise (· < ·) → (∀ p ∈ l, p < 65536) →
     let h := hunt s
     let request := Instr.setTabs tag (op :: l.flatMap be16)
     let listed := l ≠ [] ∧ l.length ≤ 24 ∧ ∀ p ∈ l, p ≤ 1800
     let refused (x : Status) : Prop := exec request s = .next (reply 0x11 tag (h, { status := x, data := [] }))
     let taken : Prop := exec request s =
       .next (reply 0x11 tag ({ h with zone := { s.zone with tabStops := new } },
         { status := .ok, data := byte new.length :: new.flatMap be16 }))
     (op = 0 → listed → (∀ p, p ∈ new ↔ p ∈ s.zone.tabStops ∨ p ∈ l) →
       (new.length ≤ 24 → taken) ∧ (24 < new.length → refused .full)) ∧
     (op = 1 → listed → (∀ p, p ∈ new ↔ p ∈ s.zone.tabStops ∧ p ∉ l) → taken) ∧
     (op = 0 ∨ op = 1 → ¬listed → refused .badValue) ∧
     (op = 2 → new = [] → taken) ∧
     (3 ≤ op.toNat → refused .badValue) ∧
     (∀ b, op = 0 ∨ op = 1 → exec (.setTabs tag (op :: l.flatMap be16 ++ [b])) s =
       .next (reply 0x11 tag (h, { status := .badValue, data := [] }))) ∧
     exec (.setTabs tag []) s = .next (reply 0x11 tag (h, { status := .badValue, data := [] }))) ∧
  (∀ (tag number span kind enable : Byte) (p : Nat) (s : State), hears s → p < 65536 →
     let h := hunt s
     let request := Instr.setWatch tag ([number] ++ be16 p ++ [span, kind, enable])
     let allowed := (number = 1 ∨ number = 2) ∧ p ≤ 1800 ∧ (span = 1 ∨ span = 2 ∨ span = 4 ∨ span = 8) ∧
       (kind = 0 ∨ kind = 1) ∧ (enable = 0 ∨ enable = 1)
     let w : Watch :=
       { position := p - p % span.toNat, span := span.toNat, kind := if kind = 0 then .note else .hold,
         enabled := enable == 1 }
     (¬allowed → exec request s = .next (reply 0x12 tag (h, { status := .badValue, data := [] }))) ∧
     (allowed → exec request s =
       .next (reply 0x12 tag
         (judgeHead { h with zone :=
             if number = 1 then { s.zone with watch1 := w } else { s.zone with watch2 := w } },
           { status := .ok, data := be16 (p - p % span.toNat) ++ [span, kind, enable] }))))

/-! ### Requests of the reports, the sounder, the sensors and the queries (R57, R141, R169 to R173, R178, R180, R184) -/

/-- SET-REPORTS: BAD-VALUE for a set bit among 11 to 15; otherwise the mask is taken, the entries of kinds now masked
leave the report queue, and the rest keep their order. SET-SOUND: the present fields, clamped; the tone's change
from off to on and the volume's change to 0 cut what plays and empty the queue.
SET-SENSORS: judged whole; every present selection is taken, and each input given one is reported at once
where its state is one that the new selection reports. The order of those events, the presence bits 4 to 7 ignored
and an absent bell-enable or tone byte not judged are the model's choices (log entry 33). -/
def Obligations.set_reports_set_sound_and_set_sensors_requests : Prop :=
  (∀ (tag hi lo : Byte) (s : State), hears s →
     let h := hunt s
     (8 ≤ hi.toNat → exec (.setReports tag [hi, lo]) s =
       .next (reply 0x13 tag (h, { status := .badValue, data := [] }))) ∧
     (hi.toNat < 8 → ∃ m : BitVec 16, m.toNat = 256 * hi.toNat + lo.toNat ∧
       exec (.setReports tag [hi, lo]) s =
         .next (reply 0x13 tag
           ({ h with link := { h.link with
               mask := m, reports := s.link.reports.filter fun e => m.getLsbD e.kind.index } },
             { status := .ok, data := [hi, lo] })))) ∧
  (∀ (tag present volume bell tone hi lo : Byte) (s : State), hears s →
     let h := hunt s
     let x := s.sounder
     let has (n : Nat) : Prop := present.toNat.testBit n = true
     let request := Instr.setSound tag [present, volume, bell, tone, hi, lo]
     let f := max 400 (min 4000 (256 * hi.toNat + lo.toNat))
     (has 1 ∧ 2 ≤ bell.toNat ∨ has 2 ∧ 2 ≤ tone.toNat →
       exec request s = .next (reply 0x14 tag (h, { status := .badValue, data := [] }))) ∧
     (¬(has 1 ∧ 2 ≤ bell.toNat) → ¬(has 2 ∧ 2 ≤ tone.toNat) →
       ∃ y : Sounder,
         y.volume = (if present.toNat.testBit 0 then min volume.toNat 3 else x.volume) ∧
         y.bellEnable = (if present.toNat.testBit 1 then bell == 1 else x.bellEnable) ∧
         y.tone = (if present.toNat.testBit 2 then tone == 1 else x.tone) ∧
         y.frequency = (if present.toNat.testBit 3 then f - f % 100 else x.frequency) ∧
         (x.tone = false ∧ y.tone = true ∨ x.volume ≠ 0 ∧ y.volume = 0 → y.playing = none ∧ y.queue = []) ∧
         (¬(x.tone = false ∧ y.tone = true) → ¬(x.volume ≠ 0 ∧ y.volume = 0) →
           y.playing = x.playing ∧ y.queue = x.queue) ∧
         exec request s =
           .next (reply 0x14 tag ({ h with sounder := y },
             { status := .ok
               data := [byte y.volume, if y.bellEnable then 1 else 0, if y.tone then 1 else 0] ++
                 be16 y.frequency })))) ∧
  (∀ (tag a b c d : Byte) (s : State), hears s →
     let h := hunt s
     let given (i : Sensor) : Byte := match i with | .cover => a | .paper => b | .tape => c | .ribbon => d
     let all : List Sensor := [.cover, .paper, .tape, .ribbon]
     let code (i : Sensor) : Byte := match i with | .cover => 0 | .paper => 1 | .tape => 2 | .ribbon => 3
     let open_ (i : Sensor) : Byte := if (s.sensors.get i).debounced = .opened then 0 else 1
     ((∃ i, 4 ≤ (given i).toNat ∧ (given i).toNat ≤ 254) →
       exec (.setSensors tag [a, b, c, d]) s =
         .next (reply 0x15 tag (h, { status := .badValue, data := [] }))) ∧
     ((∀ i, ¬(4 ≤ (given i).toNat ∧ (given i).toNat ≤ 254)) →
       ∃ (x : Sensors) (told : Sensor → Bool),
         (∀ i, ∃ e, x.get i = { s.sensors.get i with selection := e } ∧
           e = (match (given i).toNat with
             | 0 => .none | 1 => .openGoing | 2 => .closeGoing | 3 => .both
             | _ => (s.sensors.get i).selection)) ∧
         (∀ i, told i = true ↔ given i = 3 ∨ given i = 1 ∧ (s.sensors.get i).debounced = .opened ∨
           given i = 2 ∧ (s.sensors.get i).debounced = .closed) ∧
         exec (.setSensors tag [a, b, c, d]) s =
           .next (reply 0x15 tag
             ((all.filter told).foldl (fun t i => raise .sensor 1 [code i, open_ i] t) { h with sensors := x },
               { status := .ok, data := all.map (fun i => byte (x.get i).selection.code) ++ all.map open_ }))))

/-- A one-shot is judged by the table of its cases: SOUND asks for one and answers what came of it (the byte of
the outcome, then that of its cause: log entry 9); when a one-shot ends, the head of the queue begins to play.
What the speaker gives (R172, R173): the tone at its frequency and fixed level; else the one-shot that plays, `t`
tenths of a millisecond from its start, at its frequency, or silent in DOUBLE-BEEP's middle 60 ms, at the volume
as it stands, BELL decaying; else nothing. That ONE_SHOT_END with nothing playing changes nothing is the model's
choice (log entry 3). -/
def Obligations.one_shots_play_queue_or_drop : Prop :=
  (∀ (tag k : Byte) (s : State), hears s → k = 0 ∨ 6 ≤ k.toNat →
    exec (.sound tag [k]) s = .next (reply 0x16 tag (hunt s, { status := .badValue, data := [] }))) ∧
  (∀ (tag k : Byte) (o : OneShot) (length : Nat) (s : State), hears s →
    (k, o, length) ∈
      ([(1, .click, 50), (2, .bell, 3000), (3, .beep, 1000), (4, .doubleBeep, 2200), (5, .error, 2500)] :
        List (Byte × OneShot × Nat)) →
    let x := s.sounder
    let leads (y : Sounder) (data : List Byte) : Prop :=
      exec (.sound tag [k]) s =
        .next (reply 0x16 tag ({ hunt s with sounder := y }, { status := .ok, data := data })) ∧
      askSound o s = { s with sounder := y }
    (x.tone = true → leads x [2, 0]) ∧
    (x.tone = false → x.volume = 0 → leads x [2, 1]) ∧
    (x.tone = false → x.volume ≠ 0 → o = .bell → x.bellEnable = false → leads x [2, 2]) ∧
    (x.tone = false → x.volume ≠ 0 → (o = .bell → x.bellEnable = true) →
      (x.playing = none → leads { x with playing := some { shot := o, ends := s.now + length } } [0, 0xFF]) ∧
      (x.playing ≠ none → 4 ≤ x.queue.length → leads x [2, 3]) ∧
      (x.playing ≠ none → x.queue.length < 4 → leads { x with queue := x.queue ++ [o] } [1, 0xFF]))) ∧
  (∀ s : State,
    (s.sounder.playing = none → exec .oneShotEnd s = .next s) ∧
    (∀ p, s.sounder.playing = some p → s.sounder.queue = [] →
      exec .oneShotEnd s =
        .next { s with now := max s.now p.ends, sounder := { s.sounder with playing := none } }) ∧
    (∀ p o rest, s.sounder.playing = some p → s.sounder.queue = o :: rest →
      exec .oneShotEnd s =
        .next { s with
          now := max s.now p.ends
          sounder := { s.sounder with
            playing := some { shot := o, ends := max s.now p.ends + o.length }, queue := rest } })) ∧
  (∀ (x : Sounder) (start t : Nat) (o : OneShot) (length hertz : Nat),
    (o, length, hertz) ∈ ([(.click, 50, 2000), (.bell, 3000, 2400), (.beep, 1000, 1000), (.doubleBeep, 2200, 1000),
        (.error, 2500, 400)] : List (OneShot × Nat × Nat)) →
    let sounds := x.playing = some { shot := o, ends := start + length } ∧ t < length
    let silent := o = .doubleBeep ∧ 800 ≤ t ∧ t < 1400
    (x.tone = true → x.output (start + t) =
      some { frequency := x.frequency, loudness := .fixed, decaying := false }) ∧
    (x.tone = false → x.playing = none → x.output (start + t) = none) ∧
    (x.tone = false → sounds → silent → x.output (start + t) = none) ∧
    (x.tone = false → sounds → ¬silent → 1 ≤ x.volume → x.output (start + t) =
      some { frequency := hertz, loudness := .volume x.volume, decaying := decide (o = .bell) }))

/-- The 8 ms debounce, and an accepted edge: the input is handed on to the engine for COVER, then reported if the
edge selection reports it.
The cover at the engine: nothing in UNHOMED, PAUSED (COVER) and FAULTED; otherwise the engine pauses with its
work ended, a cut drive adding the heat of the drive given and an order in BRAKE completing; the closing starts a
homing from PAUSED (COVER) alone. The heat of a cut firing is an inference (log entry 19); that DEBOUNCE_EXPIRY with
no timer running changes nothing is the model's choice (log entry 3). -/
def Obligations.inputs_and_the_cover : Prop :=
  (∀ (i : Sensor) (s : State),
     let x := s.sensors.get i
     let withInput (y : Input) : State := { s with sensors := s.sensors.set i y }
     (∀ l, l = x.debounced →
       exec (.rawLevelChange i l) s = .next (withInput { x with raw := l, timer := none })) ∧
     (∀ l, l ≠ x.debounced → x.timer = none →
       exec (.rawLevelChange i l) s = .next (withInput { x with raw := l, timer := some (s.now + 80) })) ∧
     (∀ l t, l ≠ x.debounced → x.timer = some t →
       exec (.rawLevelChange i l) s = .next (withInput { x with raw := l })) ∧
     (x.timer = none → exec (.debounceExpiry i) s = .next s) ∧
     (∀ t u v, x.timer = some t → x.raw ≠ x.debounced →
       u = { withInput { x with debounced := x.raw, timer := none } with now := max s.now t } →
       (i = .cover → x.raw = .opened → v = coverOpened u) →
       (i = .cover → x.raw = .closed → v = coverClosed u) →
       (i ≠ .cover → v = u) →
       let told := x.selection = .both ∨ x.selection = .openGoing ∧ x.raw = .opened ∨
         x.selection = .closeGoing ∧ x.raw = .closed
       let code : Byte := match i with | .cover => 0 | .paper => 1 | .tape => 2 | .ribbon => 3
       (told → exec (.debounceExpiry i) s =
         .next (textEvent (raise .sensor 0 [code, if x.raw = .opened then 0 else 1] v))) ∧
       (¬told → exec (.debounceExpiry i) s = .next (textEvent v)))) ∧
  (∀ s : State,
     let idleState := s.engine.state = .unhomed ∨ s.engine.state = .paused .cover ∨
       ∃ r, s.engine.state = .faulted r
     let paused (order : Option OrderProgress) (heat : Nat) : State :=
       raise .engine 5 [1]
         { s with
           engine := { s.engine with
             state := .paused .cover, homing := none, homingLimit := none, order := order, groupWait := none,
             feed := none }
           impression := { s.impression with heat := s.impression.heat + heat } }
     (idleState → coverOpened s = s) ∧
     (¬idleState → (∀ o, s.engine.order = some o → o.phase ≠ .drive ∧ o.phase ≠ .brake) →
       coverOpened s = paused none 0) ∧
     (∀ o, ¬idleState → s.engine.order = some o → o.phase = .drive →
       coverOpened s = paused none (min o.drivePulse (s.now - o.driveStart))) ∧
     (∀ o, ¬idleState → s.engine.order = some o → o.phase = .brake →
       coverOpened s = completeOrder (paused (some o) 0)) ∧
     (s.engine.state ≠ .paused .cover → coverClosed s = s) ∧
     (s.engine.state = .paused .cover →
       coverClosed s =
         raise .engine 1 [0]
           { s with engine :=
             { s.engine with
               state := .homing, homing := some .carriageSearch, homingTravel := 0,
               homingLimit := some (s.now + 7750), carriage := none, wheelPosition := none, order := none,
               groupWait := none, faultDetail := none } }))

/-- The queries change nothing and answer the state as it stands, in the layouts of R185 (log entries 8 and 9 for what it
leaves open, such as 1 for a hold mark that is set; log entry 17 on a GET-WORD body of more than one byte, which is the model's choice). -/
def Obligations.queries_answer_the_state_and_change_nothing : Prop :=
  ∀ (tag : Byte) (s : State), hears s →
    let h := hunt s
    let answers (c : Instr) (k : Byte) (x : Status) (data : List Byte) : Prop :=
      exec c s = .next (reply k tag (h, { status := x, data := data }))
    let index (p : Cell → Bool) : Byte := match s.line.cells.findIdx? p with | some i => byte i | none => 0xFF
    let bit (b : Bool) (n : Nat) : Nat := if b then n else 0
    let wordBytes (w : Word) : List Byte :=
      let codes := ((s.line.cells.filter fun c => c.word == some w.id).take 32).map fun c => c.glyph.getD 0
      [byte w.id, byte w.first, byte w.last, byte w.count] ++ be16 w.hash ++
        [(match w.state with
            | .opened => 0 | .queued => 1 | .checking => 2 | .good => 3 | .unknown => 4 | .skipped => 5),
          (match w.skip with
            | some .digit => 0 | some .long => 1 | some .unavailable => 2 | none => 0xFF),
          byte w.generation, if w.holdMark then 1 else 0, if w.accepted then 1 else 0, byte codes.length] ++ codes ++
        [(match s.spelling.unit with | .starting => 0 | .available => 1 | .unavailable => 2),
          (match s.spelling.status with
            | .none => 0 | .valid _ => 1 | .bad => 2 | .download => 3 | .absent => 4),
          byte s.spelling.checkQueue.length, byte s.spelling.ignoreList.length] ++
        be16 (s.spelling.userIndex.filter Option.isSome).length
    answers (.getStatus tag []) 0x20 .ok
      ([byte s.engine.state.code, byte s.engine.state.reasonCode, byte (96 - s.composer.keyQueue.length),
          byte s.line.cells.length, byte s.strikeQueue.length] ++ be16 s.composer.printPoint ++
        (match s.engine.carriage with | none => [0x80, 0x00] | some c => be16 (c % 65536).toNat) ++
        [byte s.impression.band.code] ++ be16 (min s.impression.heat 65535) ++
        [byte s.spelling.unit.code, byte s.memory.state.code, byte s.memory.protect,
          byte (bit (s.sensors.cover.debounced == .opened) 1 + bit (s.sensors.paper.debounced == .opened) 2 +
            bit (s.sensors.tape.debounced == .opened) 4 + bit (s.sensors.ribbon.debounced == .opened) 8),
          (match activeProfile s.wheel with | some p => byte p.code | none => 0)]) ∧
    (∀ first : Byte, s.line.cells.length < first.toNat → answers (.getLine tag [first]) 0x21 .badValue []) ∧
    (∀ first : Byte, first.toNat ≤ s.line.cells.length → answers (.getLine tag [first]) 0x21 .ok
      ([byte s.line.cells.length, byte s.display.windowStart, byte s.display.cursorColumn] ++
        be16 s.composer.printPoint ++
        [(match s.line.releaseMark with | some m => index (fun c => c.id == m) | none => 0xFF),
          index (fun c => c.kind == .lineEnd)] ++
        ((s.line.cells.drop first.toNat).take 4).flatMap fun c =>
          [byte c.id, byte c.kind.code, c.glyph.getD 0xFF] ++ be16 c.start ++ be16 c.advance ++
            [byte c.state.code, byte (bit c.bold 1 + bit c.underline 2 + bit c.pastMargin 4),
              byte (bit c.underlineDropped 1 + bit c.unprintable 2),
              (match c.word with | some w => byte w | none => 0xFF), byte c.strikes.length])) ∧
    (∀ a b rest, answers (.getWord tag (a :: b :: rest)) 0x22 .badValue []) ∧
    (∀ id : Byte, (∀ w ∈ s.spelling.words, w.id ≠ id.toNat) → answers (.getWord tag [id]) 0x22 .notFound []) ∧
    (∀ (id : Byte) (w : Word), s.spelling.words.find? (fun x => x.id == id.toNat) = some w →
      answers (.getWord tag [id]) 0x22 .ok (wordBytes w)) ∧
    ((∀ w ∈ s.spelling.words, w.state = .unknown → w.accepted = true) →
      answers (.getWord tag []) 0x22 .notFound []) ∧
    (∀ before c after w, s.line.cells = before ++ c :: after → w ∈ s.spelling.words → w.state = .unknown →
      w.accepted = false → w.first = c.id → (s.spelling.words.map (·.first)).Nodup →
      (∀ d ∈ before, ∀ x ∈ s.spelling.words, x.state = .unknown → x.accepted = false → x.first ≠ d.id) →
      answers (.getWord tag []) 0x22 .ok (wordBytes w)) ∧
    answers (.getFormat tag []) 0x23 .ok
      ([byte s.composer.format.pitch.code] ++ be16 s.composer.format.leftMargin ++
        be16 s.composer.format.rightMargin ++
        [byte (s.composer.format.spacing / 4), byte s.composer.format.alignment.code,
          byte s.composer.format.mode.code, if s.composer.format.wrap then 1 else 0,
          byte s.composer.format.spelling.code, BitVec.ofInt 8 s.composer.format.impression,
          byte s.composer.format.speed, byte s.composer.format.bellZone]) ∧
    (∀ f : Byte, 96 ≤ f.toNat → answers (.getWheel tag [f]) 0x24 .badValue []) ∧
    (∀ f : Byte, f.toNat ≤ 95 → ∃ header petals, answers (.getWheel tag [f]) 0x24 .ok
      ([byte s.wheel.mounted, byte s.wheel.resolution.code, byte s.wheel.directoryState.code,
          (match s.wheel.cache[0]? with | some (some p) => byte p.code | _ => 0),
          (match s.wheel.cache[1]? with | some (some p) => byte p.code | _ => 0),
          byte s.wheel.staging.state.code, byte s.wheel.composites.length] ++ header ++ petals) ∧
      (activeProfile s.wheel = none → header = [0, 0, 0, 0xFF, 0] ∧ petals = []) ∧
      (∀ p, activeProfile s.wheel = some p →
        header = [byte p.code, byte p.pitch.code, byte p.spaceWidth,
          (match p.underscore with | some u => byte u | none => 0xFF),
          byte ((p.petals.drop f.toNat).take 14).length] ∧
        petals = ((p.petals.drop f.toNat).take 14).flatMap fun e =>
          [e.glyph, byte e.width, byte (e.impression + bit e.accent 128)]))

/-! ### The display (R143 to R153) -/

/-- SHOW-MESSAGE (BAD-VALUE for a body without a duration byte is the model's choice: log entry 17), CLEAR-MESSAGE,
SET-CONTRAST, and the timers of the display; that OVERLAY_TIMER with no timed overlay changes nothing is the model's
choice (log entry 3). -/
def Obligations.display_requests_and_timers : Prop :=
  ∀ (tag : Byte) (s : State),
    let h := hunt s
    let d := s.display
    let shown (x : Display) (t : State) : State := render { t with display := x }
    (hears s → exec (.showMessage tag []) s =
      .next (reply 0x30 tag (h, { status := .badValue, data := [] }))) ∧
    (∀ (n : Byte) (codes : List Byte), hears s →
      let allowed := codes.length ≤ 28 ∧ ∀ c ∈ codes, (0x20 ≤ c.toNat ∧ c.toNat ≤ 0x7E) ∨ 0xA1 ≤ c.toNat
      (¬allowed → exec (.showMessage tag (n :: codes)) s =
        .next (reply 0x30 tag (h, { status := .badValue, data := [] }))) ∧
      (allowed → exec (.showMessage tag (n :: codes)) s =
        .next (reply 0x30 tag
          (shown
            { d with
              overlay := some
                { codes := codes, expires := if n = 0 then none else some (s.now + 1000 * n.toNat) } } h,
            { status := .ok, data := [] })))) ∧
    (hears s → d.overlay = none → exec (.clearMessage tag []) s =
      .next (reply 0x31 tag (h, { status := .ok, data := [] }))) ∧
    (hears s → d.overlay ≠ none → exec (.clearMessage tag []) s =
      .next (reply 0x31 tag (shown { d with overlay := none } h, { status := .ok, data := [] }))) ∧
    (∀ v : Byte, hears s → exec (.setContrast tag [v]) s =
      .next (reply 0x32 tag ({ h with display := { d with contrast := min v.toNat 15 } },
        { status := .ok, data := [byte (min v.toNat 15)] }))) ∧
    (∀ o t, d.overlay = some o → o.expires = some t →
      exec .overlayTimer s = .next (shown { d with overlay := none } { s with now := max s.now t })) ∧
    ((∀ o, d.overlay = some o → o.expires = none) → exec .overlayTimer s = .next s) ∧
    exec .wordBlink s = .next (shown
      { d with wordBlinkOn := !d.wordBlinkOn, wordBlinkDue := d.wordBlinkDue + 2500 }
      { s with now := max s.now d.wordBlinkDue }) ∧
    exec .cursorBlink s = .next (shown
      { d with cursorBlinkOn := !d.cursorBlinkOn, cursorBlinkDue := d.cursorBlinkDue + 4000 }
      { s with now := max s.now d.cursorBlinkDue })

/-- A render: the window kept about the cursor index, the 28 text columns of the line memory or of the overlay,
and the four status columns; none before the first render. -/
def Obligations.render_shows_the_window_and_the_status : Prop :=
  ∀ s : State,
    (s.display.rendered = false → render s = s) ∧
    (s.display.rendered = true → ∃ d : Display,
      render s = { s with display := d } ∧
      let ws := s.display.windowStart
      let c := cursorIndex s.line.cells s.composer.printPoint
      let moved := d.windowStart ≠ ws ∨ d.cursorColumn ≠ s.display.cursorColumn
      let blink (x : Cell) : Prop := ∃ id w, x.word = some id ∧ w ∈ s.spelling.words ∧ w.id = id ∧
        w.state = .unknown ∧ w.accepted = false
      let column (k : Nat) (shape : Shape) (lit : Bool) : Prop :=
        d.cells[k]? = some
          { shape := shape, underlineRow := lit || (d.cursorBlinkOn && k == d.cursorColumn) }
      let status (k n : Nat) : Prop := d.cells[k]? = some { shape := .char (byte n), underlineRow := false }
      d.cells.length = 32 ∧ d.cursorIndex = c ∧ d.cursorColumn = c - d.windowStart ∧ d.cursorColumn ≤ 27 ∧
      (27 + ws < c → d.windowStart = c - 20) ∧ (c < ws → d.windowStart = c - 7) ∧
      (ws ≤ c → c ≤ 27 + ws → d.windowStart = ws) ∧
      (moved → d.cursorBlinkOn = true ∧ d.cursorBlinkDue = s.now + 4000) ∧
      (¬moved → d.cursorBlinkOn = s.display.cursorBlinkOn ∧ d.cursorBlinkDue = s.display.cursorBlinkDue) ∧
      d.overlay = s.display.overlay ∧ d.contrast = s.display.contrast ∧
      d.wordBlinkOn = s.display.wordBlinkOn ∧ d.wordBlinkDue = s.display.wordBlinkDue ∧ d.rendered = true ∧
      (d.overlay = none → ∀ k < 28,
        (s.line.cells.length ≤ d.windowStart + k → column k .blank false) ∧
        (∀ x, s.line.cells[d.windowStart + k]? = some x →
          let lit := x.underline && !x.underlineDropped && x.kind != .tab && x.kind != .lineEnd
          (blink x → d.wordBlinkOn = false → column k .blank false) ∧
          (¬blink x ∨ d.wordBlinkOn = true →
            (x.unprintable = true → column k .block lit) ∧
            (x.unprintable = false →
              (x.kind = .glyph ∨ x.kind = .composite → column k (.char (x.glyph.getD 0)) lit) ∧
              (x.kind = .space → column k .blank lit) ∧
              (x.kind = .tab → column k .rightArrow false) ∧
              (x.kind = .lineEnd → column k .returnSymbol false))))) ∧
      (∀ o, d.overlay = some o → ∀ k < 28, d.cells[k]? = some
        { shape := match o.codes[k]? with
            | some b => if b = 0x20 then .blank else .char b
            | none => .blank
          underlineRow := false }) ∧
      status 28 (match s.composer.format.pitch with
        | .ten => 0x30 | .twelve => 0x32 | .fifteen => 0x35 | .proportional => 0x50) ∧
      status 29 (match s.composer.format.mode with | .direct => 0x44 | .word => 0x57 | .line => 0x4C) ∧
      ((∃ w ∈ s.spelling.words, w.state = .unknown ∧ w.accepted = false) → status 30 0x3F) ∧
      ((∀ w ∈ s.spelling.words, w.state = .unknown → w.accepted = true) →
        status 30 (match s.composer.format.spelling with | .off => 0x2D | .flag => 0x66 | .hold => 0x68)) ∧
      ((∃ r, s.engine.state = .faulted r) → status 31 0x21) ∧
      ((∃ r, s.engine.state = .paused r) → status 31 0x23) ∧
      ((∀ r, s.engine.state ≠ .faulted r) → (∀ r, s.engine.state ≠ .paused r) →
        (s.composer.format.rightMargin - s.composer.format.bellZone ≤ s.composer.printPoint →
          status 31 0x2A) ∧
        (s.composer.printPoint < s.composer.format.rightMargin - s.composer.format.bellZone →
          d.cells[31]? = some { shape := .blank, underlineRow := false })))

/-- R144: the cursor index by its three cases, and that every render computes it. -/
def Obligations.cursor_index_follows_the_print_point : Prop :=
  (∀ (cells before line : List Cell) (p : Nat), cells = before ++ line → composingCells cells = line →
    ((∀ c ∈ line, c.start + c.advance ≤ p) → cursorIndex cells p = cells.length) ∧
    (∀ l c r, line = l ++ c :: r → (∃ d ∈ line, p < d.start + d.advance) → (∀ d ∈ l, d.start < p) →
      p ≤ c.start → cursorIndex cells p = before.length + l.length) ∧
    ((∀ c ∈ line, c.start < p) → cursorIndex cells p = cells.length)) ∧
  (∀ s : State, s.display.rendered = true →
    (render s).display.cursorIndex = cursorIndex s.line.cells s.composer.printPoint)

/-! ### Words (R124 to R129, R135 to R139) -/

/-- ACCEPT-WORD by its checks and its three scopes (log entry 13 on a word of more than 24 letters, and on BAD-VALUE
for PERMANENT of a word with an apostrophe at its edge).
ADD-WORD and REMOVE-WORD: the checks in their order, and how the operation begins: with the comparison of
the first slot whose index entry holds the hash, or with the first write. -/
def Obligations.accept_add_and_remove_word_requests : Prop :=
  (∀ (tag id scope : Byte) (s t : State), hears s →
     let h := hunt s
     let word := s.spelling.words.find? fun x => x.id == id.toNat
     let letters := wordLetters s.line.cells id.toNat
     let e : IgnoreEntry := { letters := letters, hash := wordHash letters }
     let answers (u : State) (x : Status) : Prop :=
       exec (.acceptWord tag [id, scope]) s = .next (reply 0x40 tag (u, { status := x, data := [] }))
     t = releaseAdvance { h with spelling := { s.spelling with
       words := s.spelling.words.map fun w => if w.id = id.toNat then { w with accepted := true } else w } } →
     (word = none → answers h .notFound) ∧
     (∀ w, word = some w → w.state = .opened → answers h .notReady) ∧
     (∀ w, word = some w → w.state ≠ .opened →
       (3 ≤ scope.toNat → answers h .badValue) ∧
       (scope = 1 → s.spelling.unit = .starting → answers h .notReady) ∧
       (scope = 0 → answers (textEnd t) .ok) ∧
       (scope = 1 → s.spelling.unit ≠ .starting → some e.hash ∈ s.spelling.userIndex ∨ 24 < letters.length →
         answers (textEnd t) .ok) ∧
       (scope = 1 → s.spelling.unit ≠ .starting → some e.hash ∉ s.spelling.userIndex → letters.length ≤ 24 →
         answers (textEnd { t with spelling := { t.spelling with
           ignoreList := (e :: s.spelling.ignoreList.filter (· != e)).take 16 } }) .ok) ∧
       (scope = 2 → ∀ u x,
         addWord ((s.line.cells.filter (fun c => c.word == some id.toNat)).map (fun c => c.glyph.getD 0)) t =
           (u, x) → answers (textEnd u) x))) ∧
  (∀ (tag : Byte) (codes : List Byte) (s : State) (kind : UserWordKind), hears s →
     let h := hunt s
     let c := match kind with | .add => Instr.addWord tag codes | .remove => Instr.removeWord tag codes
     let k : Byte := match kind with | .add => 0x41 | .remove => 0x42
     let answers (u : State) (x : Status) : Prop :=
       exec c s = .next (reply k tag (grant u, { status := x, data := [] }))
     let word : Prop := ∀ i b, codes[i]? = some b → isLetterCode b = true ∨
       b = 0x27 ∧ 0 < i ∧ (∃ x, codes[i - 1]? = some x ∧ isLetterCode x = true) ∧
         ∃ x, codes[i + 1]? = some x ∧ isLetterCode x = true
     let letters := codes.map letterValue
     let hash := wordHash letters
     let index := s.spelling.userIndex
     let begun (p : UserWordProgress) (a : Access) : State := askMemory .userWord a
       { h with spelling := { s.spelling with
           userOp := some { kind := kind, letters := letters, hash := hash, progress := p } } }
     (s.spelling.userOp ≠ none → answers h .busy) ∧
     (s.spelling.userOp = none → s.memory.state = .absent → answers h .noMemory) ∧
     (s.spelling.userOp = none → s.memory.state ≠ .absent → s.spelling.unit = .starting →
       answers h .notReady) ∧
     (s.spelling.userOp = none → s.memory.state ≠ .absent → s.spelling.unit ≠ .starting →
       (¬word → answers h .badValue) ∧
       (word → codes.length < 2 ∨ 15 < codes.length → answers h .tooLong) ∧
       (word → 2 ≤ codes.length → codes.length ≤ 15 → 3 ≤ s.memory.protect → answers h .isProtected) ∧
       (word → 2 ≤ codes.length → codes.length ≤ 15 → s.memory.protect < 3 →
         (some hash ∉ index →
           (kind = .remove → answers h .notFound) ∧
           (kind = .add → none ∉ index → answers h .full) ∧
           (∀ before after, kind = .add → index = before ++ none :: after → none ∉ before →
             let slot := 0x0200 + 16 * before.length
             answers (begun (.write before.length 0) (.write (slot + 4) ((userSlotImage letters).drop 4 |>.take 4)))
               .accepted)) ∧
         (∀ before after, index = before ++ some hash :: after → some hash ∉ before →
           answers (begun (.compare before.length []) (.read (0x0200 + 16 * before.length))) .accepted))))

/-- R124, R126: a new cell joins the open word or the run that found the table full, begins a word, becomes the pending
apostrophe, or completes the word. R125: what completes it, at a line end too (log entry 12). R128: the tests of a
completed word in their order, its hold mark and its place in the check queue. R129: the letter values and the
hash. That a new record's hash is 0, and that a completion in mode OFF leaves it, are the model's choices (log entry
30). -/
def Obligations.words_begin_join_complete_and_classify : Prop :=
  (∀ (s : State) (before after : List Cell) (c : Cell),
     s.line.cells = before ++ c :: after → (s.line.cells.map (·.id)).Nodup →
     let x := s.spelling
     let code := (c.glyph.getD 0).toNat
     let ink := c.kind = .glyph ∨ c.kind = .composite
     let letter := ink ∧ (0x41 ≤ code ∧ code ≤ 0x5A ∨ 0x61 ≤ code ∧ code ≤ 0x7A ∨ 0xC0 ≤ code)
     let apostrophe := ink ∧ code = 0x27
     let last : Option Nat := match x.openWord with
       | .none => none
       | .word id => (x.words.find? fun w => w.id == id).map (·.last)
       | .unlisted run => run.getLast?
     let previous := before.getLast?.map (·.id)
     let direct := last ≠ none ∧ x.pendingApostrophe = none ∧ previous = last
     let beyond (a : Nat) : Prop := x.pendingApostrophe = some a ∧ previous = some a
     let u := spellCell c.id s
     let joins (ids : List Nat) : Prop :=
       (∀ id w, x.openWord = .word id → x.words.find? (fun w => w.id == id) = some w → u =
         { s with
           line := { s.line with cells := s.line.cells.map fun d =>
             if d.id ∈ ids then { d with word := some id } else d }
           spelling := { x with
             pendingApostrophe := none
             words := x.words.map fun v =>
               if v.id = id then { v with count := v.count + ids.length, last := c.id } else v } }) ∧
       (∀ run, x.openWord = .unlisted run → u =
         { s with spelling := { x with openWord := .unlisted (run ++ ids), pendingApostrophe := none } })
     (letter → direct → joins [c.id]) ∧
     (∀ a, letter → beyond a → joins [a, c.id]) ∧
     (letter → ¬direct → (∀ a, ¬beyond a) → ∃ t, t = completeOpenWord s ∧
       let id := freeId t.spelling.nextWordId (t.spelling.words.map (·.id))
       (t.spelling.words.length < 100 → u =
         { t with
           line := { t.line with cells := t.line.cells.map fun d =>
             if d.id = c.id then { d with word := some id } else d }
           spelling := { t.spelling with
             words := t.spelling.words ++
               [{ id := id, first := c.id, last := c.id, count := 1, hash := 0, state := .opened, skip := none,
                  generation := 0, holdMark := false, accepted := false }]
             nextWordId := (id + 1) % 256, openWord := .word id, pendingApostrophe := none } }) ∧
       (100 ≤ t.spelling.words.length → u = raise .spell 1 [byte c.id]
         { t with spelling := { t.spelling with openWord := .unlisted [c.id], pendingApostrophe := none } })) ∧
     (apostrophe → direct → u = { s with spelling := { x with pendingApostrophe := some c.id } }) ∧
     (¬letter → ¬(apostrophe ∧ direct) → u = completeOpenWord s)) ∧
  (∀ s : State,
     let x := s.spelling
     let closed : State := { s with spelling := { x with openWord := .none, pendingApostrophe := none } }
     (∀ id, x.openWord = .word id → completeOpenWord s = classify id closed) ∧
     (x.openWord = .none ∨ (∃ run, x.openWord = .unlisted run) → completeOpenWord s = closed) ∧
     (∀ l e r, s.line.cells = l ++ e :: r → e.kind = .lineEnd → (∀ d ∈ l, d.kind ≠ .lineEnd) →
       let stands := (∃ id, x.openWord = .word id ∧ ∃ d ∈ l, d.word = some id) ∨
         ∃ run, x.openWord = .unlisted run ∧ ∃ d ∈ l, d.id ∈ run
       (stands → spellLineEnd s = completeOpenWord s) ∧ (¬stands → spellLineEnd s = s))) ∧
  (∀ (s : State) (id : Nat) (w : Word) (mark : Bool),
     s.spelling.words.find? (fun w => w.id == id) = some w → (s.line.cells.map (·.id)).Nodup →
     (∃ c ∈ s.line.cells, c.id = w.first) → (∃ c ∈ s.line.cells, c.id = w.last) →
     (mark = true ↔ s.composer.format.spelling = .hold ∧ s.composer.format.mode ≠ .direct ∧
       ∀ c ∈ s.line.cells, c.word = some id → c.state = .held) →
     let x := s.spelling
     let letters := (s.line.cells.filter fun c => c.word == some id).map fun c => letterValue (c.glyph.getD 0)
     let e : IgnoreEntry := { letters := letters, hash := wordHash letters }
     let isDigit (d : Cell) : Prop := d.kind = .glyph ∧ 0x30 ≤ (d.glyph.getD 0).toNat ∧ (d.glyph.getD 0).toNat ≤ 0x39
     let digit := (∃ l d f r, s.line.cells = l ++ d :: f :: r ∧ f.id = w.first ∧ isDigit d) ∨
       ∃ l f d r, s.line.cells = l ++ f :: d :: r ∧ f.id = w.last ∧ isDigit d
     let judged (state : WordState) (skip : Option SkipReason) (x : SpellingUnit) : State :=
       { s with spelling := { x with words := s.spelling.words.map fun v =>
           if v.id = id then
             { v with hash := e.hash, state := state, skip := skip, holdMark := v.holdMark || mark }
           else v } }
     let u := classify id s
     let long := w.count ≠ 1 ∧ 24 < w.count
     let fair := w.count ≠ 1 ∧ w.count ≤ 24 ∧ ¬digit
     (s.composer.format.spelling = .off → u =
       { s with spelling := { x with words := x.words.map fun v =>
           if v.id = id then { v with state := .skipped, skip := none } else v } }) ∧
     (s.composer.format.spelling ≠ .off →
       (w.count = 1 → u = judged .good none x) ∧
       (long → u = judged .skipped (some .long) x) ∧
       (w.count ≠ 1 → w.count ≤ 24 → digit → u = judged .skipped (some .digit) x) ∧
       (fair → e ∈ x.ignoreList →
         u = judged .good none { x with ignoreList := (e :: x.ignoreList.filter (· != e)).take 16 }) ∧
       (fair → e ∉ x.ignoreList → x.unit = .unavailable → u = judged .skipped (some .unavailable) x) ∧
       (fair → e ∉ x.ignoreList → x.unit ≠ .unavailable → 8 ≤ x.checkQueue.length →
         u = raise .spell 2 [byte id] (judged .skipped (some .unavailable) x)) ∧
       (fair → e ∉ x.ignoreList → x.unit ≠ .unavailable → x.checkQueue.length < 8 →
         u = judged .queued none { x with checkQueue := x.checkQueue ++ [id] }))) ∧
  (∀ c : Byte,
    (0x61 ≤ c.toNat → c.toNat ≤ 0x7A → letterValue c = c.toNat - 0x61 + 1) ∧
    (0x41 ≤ c.toNat → c.toNat ≤ 0x5A → letterValue c = letterValue (c + 0x20)) ∧
    (c = 0x27 → letterValue c = 27) ∧
    (0xE0 ≤ c.toNat → letterValue c = c.toNat - 0xE0 + 28) ∧
    (0xC0 ≤ c.toNat → c.toNat ≤ 0xDF → letterValue c = letterValue (c + 0x20))) ∧
  wordHash [] = 0 ∧ (∀ l v, wordHash (l ++ [v]) = (wordHash l * 37 + v) % 65536) ∧
  (∀ b l, bucketOf (.valid b) (wordHash l) = wordHash l % b)

/-- R127: a word that loses cells in an event: without cells its record goes; OPEN, it is shorter; completed, it is
reopened under a new generation, its mark and acceptance cleared, its place in the check queue and its lookup given
up, and it is the open word or is classified anew. R124: the run that found the table full loses cells.
That a reopened word keeps its hash is the model's choice (log entry 30).
R9, R12, R145: what every removal of cells does: they leave the list and the run of the open word, the release mark
moves back, the window start keeps to its cell (that this restarts the cursor is an inference, log entry 28), the
Spelling Unit is told once, and the release advance runs (`Obligations.release_request_releases_the_carriage_line`). -/
def Obligations.words_that_lose_cells_go_or_reopen : Prop :=
  (∀ (byHeld : Bool) (removed : List Cell) (id : Nat) (w : Word) (s : State),
     (∀ c ∈ removed, c.word = none ∨ c.word = some id) → (∃ c ∈ removed, c.word = some id) →
     s.spelling.words.find? (fun w => w.id == id) = some w → (∀ run, s.spelling.openWord ≠ .unlisted run) →
     let u := spellRemoved byHeld removed s
     let x : SpellingUnit := { s.spelling with
       pendingApostrophe := s.spelling.pendingApostrophe.filter fun c => !(removed.map (·.id)).contains c }
     let left := s.line.cells.filter fun c => c.word == some id
     let lookedUp := ∃ l, x.lookup = some l ∧ l.word = id
     let without (x : SpellingUnit) (v : State) : Prop :=
       (lookedUp → v = withdrawUser .lookup { s with spelling := { x with lookup := none } }) ∧
       (¬lookedUp → v = { s with spelling := x })
     let queue := x.checkQueue.filter (· != id)
     (left = [] → without { x with
       words := x.words.filter fun v => v.id != id
       checkQueue := queue
       openWord := if x.openWord = .word id then .none else x.openWord
       pendingApostrophe := if x.openWord = .word id then none else x.pendingApostrophe } u) ∧
     (∀ f l, left.head? = some f → left.getLast? = some l →
       let shorter (v : Word) : Word := { v with count := left.length, first := f.id, last := l.id }
       (w.state = .opened → u = { s with spelling := { x with
         words := x.words.map fun v => if v.id = id then shorter v else v } }) ∧
       (w.state ≠ .opened → ∃ v,
         without { x with
           checkQueue := queue
           words := x.words.map fun v =>
             if v.id = id then
               { shorter v with
                 state := .opened, skip := none, generation := (v.generation + 1) % 256, holdMark := false,
                 accepted := false }
             else v } v ∧
         let open_ := byHeld = true ∧ x.openWord = .none ∧ s.line.cells.getLast?.map (·.id) = some l.id
         (open_ → u = { v with spelling := { v.spelling with openWord := .word id, pendingApostrophe := none } }) ∧
         (¬open_ → u = classify id v)))) ∧
  (∀ (byHeld : Bool) (removed : List Cell) (s : State), (∀ c ∈ removed, c.word = none) →
     let u := spellRemoved byHeld removed s
     let gone := removed.map (·.id)
     let after (o : OpenWord) (a : Option Nat) : State :=
       { s with spelling := { s.spelling with openWord := o, pendingApostrophe := a } }
     let apostrophe := s.spelling.pendingApostrophe.filter fun c => !gone.contains c
     (∀ run, s.spelling.openWord = .unlisted run →
       ((∀ c ∈ run, c ∈ gone) → u = after .none none) ∧
       ((∃ c ∈ run, c ∉ gone) → u = after (.unlisted (run.filter fun c => !gone.contains c)) apostrophe)) ∧
     ((∀ run, s.spelling.openWord ≠ .unlisted run) → u = after s.spelling.openWord apostrophe)) ∧
  (∀ (byHeld : Bool) (gone : Cell → Bool) (s : State), (s.line.cells.map (·.id)).Nodup →
     let cells := s.line.cells
     let d := s.display
     let ws := if ∀ c ∈ cells, gone c = true then 0
       else d.windowStart - ((cells.take d.windowStart).filter gone).length
     ∃ mark : Option Nat,
       (s.line.releaseMark = none → mark = none) ∧
       (∀ m, s.line.releaseMark = some m → (∀ c ∈ cells, c.id ≠ m) → mark = some m) ∧
       (∀ l c r, cells = l ++ c :: r → s.line.releaseMark = some c.id →
         (gone c = false → mark = some c.id) ∧
         (gone c = true → mark = ((l.filter fun d => !gone d).getLast?).map (·.id))) ∧
       removeCells byHeld gone s = releaseAdvance (spellRemoved byHeld (cells.filter gone)
         { s with
           line := { s.line with cells := cells.filter fun c => !gone c, releaseMark := mark }
           composer := { s.composer with
             openRun := s.composer.openRun.filter fun i => !((cells.filter gone).map (·.id)).contains i }
           display :=
             if d.rendered = true ∧ ws ≠ d.windowStart then
               { d with windowStart := ws, cursorBlinkOn := true, cursorBlinkDue := s.now + 4000 }
             else { d with windowStart := ws } }))

/-! ### Wheels (R45, R48 to R54) -/

/-- LOAD-WHEEL-BEGIN and LOAD-WHEEL-PETALS: the staging buffer by its states, each record judged whole.
LOAD-WHEEL-END: the refusals in their order; taken, the staged record is placed in the cache, and the staging
is emptied or its store begins with the first four bytes of its slot, wheel code 0. R45, R51: the placing: a fetch
of the same code is abandoned, the record goes to the slot that R45 chooses, and where its wheel is mounted it
becomes active, with WHEEL (ACTIVE) of source LOAD. -/
def Obligations.load_wheel_requests_stage_and_take_a_record : Prop :=
  (∀ (tag : Byte) (s : State), hears s →
     let h := hunt s
     let g := s.wheel.staging
     let begins (b : List Byte) (u : State) (x : Status) : Prop :=
       exec (.loadWheelBegin tag b) s = .next (reply 0x50 tag (u, { status := x, data := [] }))
     let loads (b : List Byte) (u : State) (x : Status) : Prop :=
       exec (.loadWheelPetals tag b) s = .next (reply 0x51 tag (u, { status := x, data := [] }))
     let staged (g : Staging) : State := { h with wheel := { s.wheel with staging := g } }
     (∀ code pitch width under : Byte,
       let allowed := (1 ≤ code.toNat ∧ code.toNat ≤ 63) ∧ pitch.toNat ∈ [10, 12, 15, 0] ∧
         (6 ≤ width.toNat ∧ width.toNat ≤ 12) ∧ (under.toNat ≤ 95 ∨ under = 0xFF)
       (g.state = .storing → begins [code, pitch, width, under] h .busy) ∧
       (g.state ≠ .storing → ¬allowed → begins [code, pitch, width, under] h .badValue) ∧
       (g.state ≠ .storing → allowed → ∃ p : Pitch, p.code = pitch.toNat ∧
         begins [code, pitch, width, under]
           (staged
             { state := .opened, code := code.toNat, pitch := p, spaceWidth := width.toNat,
               underscore := if under = 0xFF then none else some under.toNat,
               petals := List.replicate 96 none }) .ok)) ∧
     (∀ b, g.state = .empty → loads b h .notOpen) ∧ (∀ b, g.state = .storing → loads b h .busy) ∧
     (∀ b : List Byte, g.state = .opened → b.length % 3 ≠ 1 → loads b h .badValue) ∧
     (∀ (f : Byte) (ps : List (Byte × Byte × Byte)), g.state = .opened →
       let body := f :: ps.flatMap fun p => [p.1, p.2.1, p.2.2]
       let entry (p : Byte × Byte × Byte) : Prop := (p.1 = 0 ∨ isGlyphCode p.1 = true) ∧
         4 ≤ p.2.1.toNat ∧ p.2.1.toNat ≤ 18 ∧ (p.2.2 &&& 0x78) = 0 ∧
         1 ≤ (p.2.2 &&& 0x07).toNat ∧ (p.2.2 &&& 0x07).toNat ≤ 5
       let allowed := 1 ≤ ps.length ∧ ps.length ≤ 16 ∧ f.toNat + ps.length ≤ 96 ∧ ∀ p ∈ ps, entry p
       (¬allowed → loads body h .badValue) ∧
       (allowed → ∃ petals, loads body (staged { g with petals := petals }) .ok ∧
         petals.length = g.petals.length ∧
         (∀ i, i < f.toNat ∨ f.toNat + ps.length ≤ i → petals[i]? = g.petals[i]?) ∧
         (∀ i p, f.toNat + i < g.petals.length → ps[i]? = some p →
           petals[f.toNat + i]? = some (some
             { glyph := p.1, width := p.2.1.toNat, impression := (p.2.2 &&& 0x07).toNat,
               accent := (p.2.2 &&& 0x80) != 0 }))))) ∧
  (∀ (tag o : Byte) (s : State), hears s →
     let h := hunt s
     let g := s.wheel.staging
     let answers (u : State) (x : Status) : Prop :=
       exec (.loadWheelEnd tag [o]) s = .next (reply 0x52 tag (u, { status := x, data := [] }))
     let complete := (∀ p ∈ g.petals, p ≠ none) ∧
       ∀ u, g.underscore = some u → ∃ p, (g.petals.filterMap id)[u]? = some p ∧ p.glyph ≠ 0 ∧ p.accent = false
     let slot (k : Nat) : Prop :=
       (s.wheel.directory[k]? = some (some g.code) ∧ ∀ j < k, s.wheel.directory[j]? ≠ some (some g.code)) ∨
       (some g.code ∉ s.wheel.directory ∧ s.wheel.directory[k]? = some none ∧
         ∀ j < k, s.wheel.directory[j]? ≠ some none)
     (2 ≤ o.toNat → answers h .badValue) ∧
     (o.toNat ≤ 1 → g.state = .empty → answers h .notOpen) ∧
     (o.toNat ≤ 1 → g.state = .storing → answers h .busy) ∧
     (o.toNat ≤ 1 → g.state = .opened → ¬complete → answers h .badValue) ∧
     (o = 0 → g.state = .opened → complete → ∃ t, t = placeStaged h ∧
       answers (textEnd { t with wheel := { t.wheel with staging := { g with state := .empty } } }) .ok) ∧
     (o = 1 → g.state = .opened → complete →
       (s.memory.state = .absent → answers h .noMemory) ∧
       (s.memory.state = .detecting → answers h .notReady) ∧
       (s.memory.state = .twoByte ∨ s.memory.state = .threeByte →
         (2 ≤ s.memory.protect → answers h .isProtected) ∧
         (s.memory.protect < 2 → s.wheel.directoryState = .loading → answers h .notReady) ∧
         (s.memory.protect < 2 → s.wheel.directoryState ≠ .loading →
           ((∀ k, ¬slot k) → answers h .full) ∧
           (∀ k, slot k → ∃ t, t = placeStaged h ∧
             answers (textEnd (askMemory .store
               (.write (0x1200 + 320 * k) [0, byte g.pitch.code, byte g.spaceWidth, optByte g.underscore])
               { t with wheel := { t.wheel with
                   store := some { slot := k, done := 0 }, staging := { g with state := .storing } } }))
               .accepted))))) ∧
  (∀ (s t : State) (slot : Nat), s.wheel.cache.length = 2 →
     let g := s.wheel.staging
     let p : Profile :=
       { code := g.code, pitch := g.pitch, spaceWidth := g.spaceWidth, underscore := g.underscore
         petals := g.petals.filterMap id }
     ((∀ f, s.wheel.fetch = some f → f.code ≠ g.code) → t = s) →
     (∀ f, s.wheel.fetch = some f → f.code = g.code → fetchAbandoned s t) →
     slotFor t.wheel g.code slot →
     let w := t.wheel
     let placed : WheelUnit := { w with
       cache := w.cache.set slot (some p), recency := slot :: w.recency.filter (· != slot)
       glyphMap := if w.active = some slot then buildMap p.petals else w.glyphMap }
     (g.code ≠ w.mounted → placeStaged s = { t with wheel := placed }) ∧
     (g.code = w.mounted → placeStaged s =
       raise .wheel 0 [byte p.pitch.code, if p.pitch = s.composer.format.pitch then 0 else 1, 2]
         { t with wheel := { placed with
             active := some slot, resolution := .settled, glyphMap := buildMap p.petals } }))

/-- SET-COMPOSITE by its table. A change of the table reaches the placement of items, so the Composer judges its
head item again (R3, R120; `Obligations.head_item_waits_as_listed`). The order of the entries is the model's choice (log
entry 34). -/
def Obligations.set_composite_request_keeps_the_table : Prop :=
  ∀ (tag code base accent : Byte) (s : State), hears s →
    let h := hunt s
    let l := s.wheel.composites
    let answers (u : State) (x : Status) : Prop :=
      exec (.setComposite tag [code, base, accent]) s = .next (reply 0x53 tag (u, { status := x, data := [] }))
    let table (l : List Composite) : State :=
      judgeHead { h with wheel := { s.wheel with composites := l } }
    let removes := base = 0 ∧ accent = 0
    let glyphs := isGlyphCode code = true ∧ isGlyphCode base = true ∧ isGlyphCode accent = true ∧
      base ≠ code ∧ accent ≠ code
    let new : Composite := { code := code, base := base, accent := accent }
    (removes → isGlyphCode code = false → answers h .badValue) ∧
    (removes → isGlyphCode code = true → answers (table (l.filter fun e => e.code != code)) .ok) ∧
    (¬removes → ¬glyphs → answers h .badValue) ∧
    (¬removes → glyphs →
      ((∀ e ∈ l, e.code ≠ code) → 32 ≤ l.length → answers h .full) ∧
      ((∀ e ∈ l, e.code ≠ code) → l.length < 32 → answers (table (l ++ [new])) .ok) ∧
      (∀ before e after, l = before ++ e :: after → e.code = code → (∀ d ∈ before ++ after, d.code ≠ code) →
        answers (table (before ++ new :: after)) .ok))

/-! ### The serial memory and its users (R47, R48, R52, R130 to R133, R138 to R140, R155 to R167) -/

/-- SAVE-SETTINGS and SET-PROTECT: the checks in their order, and the first write that each asks for.
DICT-OPEN, DICT-WRITE and DICT-CLOSE: the checks in their order, the download's state, the first write and the
header read; outside STARTING an opened download makes the Spelling Unit UNAVAILABLE. NO-MEMORY is R156's ("Finding
the memory"); that it comes before NOT-OPEN, and a wrong length of DICT-WRITE (R178) before both, is the model's
choice (log entry 17). -/
def Obligations.memory_requests_are_judged_and_begin : Prop :=
  (∀ (tag : Byte) (s : State), hears s →
     let h := hunt s
     let m := s.memory
     let saves (u : State) (x : Status) : Prop :=
       exec (.saveSettings tag []) s = .next (reply 0x60 tag (u, { status := x, data := [] }))
     (m.state = .absent → saves h .noMemory) ∧
     (m.state = .detecting → saves h .notReady) ∧
     (m.state = .twoByte ∨ m.state = .threeByte →
       (m.save ≠ none → saves h .busy) ∧
       (m.save = none → 3 ≤ m.protect → saves h .isProtected) ∧
       (m.save = none → m.protect < 3 → ∃ image, image = Settings.image
           { format := s.composer.format, tabStops := s.zone.tabStops, watch1 := s.zone.watch1,
             watch2 := s.zone.watch2, composites := s.wheel.composites, contrast := s.display.contrast,
             volume := s.sounder.volume, mask := s.link.mask } ∧
         saves (grant (askMemory .settings (.write 0x0040 (image.take 4))
           { h with memory := { m with save := some { image := image, done := 0 } } })) .accepted)) ∧
     (∀ level : Byte,
       let sets (u : State) (x : Status) : Prop :=
         exec (.setProtect tag [level]) s = .next (reply 0x61 tag (u, { status := x, data := [] }))
       (4 ≤ level.toNat → sets h .badValue) ∧
       (level.toNat ≤ 3 → m.state = .absent → sets h .noMemory) ∧
       (level.toNat ≤ 3 → m.state = .detecting → sets h .notReady) ∧
       (level.toNat ≤ 3 → m.state = .twoByte ∨ m.state = .threeByte →
         (m.protectChange ≠ none → sets h .busy) ∧
         (m.protectChange = none →
           (level.toNat < m.protect → s.pins.allow = false → sets h .isProtected) ∧
           (level.toNat = m.protect → sets h .ok) ∧
           (m.protect < level.toNat ∨ (level.toNat < m.protect ∧ s.pins.allow = true) →
             sets (grant (askMemory .protect (.statusWrite level.toNat)
               { h with memory := { m with protectChange := some level.toNat } })) .accepted))))) ∧
  (∀ (tag : Byte) (s : State), hears s →
     let h := hunt s
     let m := s.memory
     let found := m.state = .twoByte ∨ m.state = .threeByte
     let opens (u : State) (x : Status) : Prop :=
       exec (.dictOpen tag []) s = .next (reply 0x62 tag (u, { status := x, data := [] }))
     let closes (u : State) (x : Status) : Prop :=
       exec (.dictClose tag []) s = .next (reply 0x64 tag (u, { status := x, data := [] }))
     (m.state = .absent → opens h .noMemory) ∧
     (m.state = .detecting → opens h .notReady) ∧
     (found → m.dictClose = true → opens h .busy) ∧
     (found → m.dictClose = false → m.protect ≠ 0 → opens h .isProtected) ∧
     (found → m.dictClose = false → m.protect = 0 → m.downloadOpen = true → opens h .ok) ∧
     (found → m.dictClose = false → m.protect = 0 → m.downloadOpen = false →
       let opened (x : SpellingUnit) : State :=
         { h with memory := { m with downloadOpen := true }, spelling := { x with status := .download } }
       (s.spelling.unit = .starting → opens (textEnd (opened s.spelling)) .ok) ∧
       (s.spelling.unit = .unavailable → opens (textEnd (releaseAdvance (opened s.spelling))) .ok) ∧
       (s.spelling.unit = .available →
         opens (textEnd (releaseAdvance (raise .spell 5 [2, 2] (withdrawUser .lookup
           (opened { s.spelling with
             unit := .unavailable, checkQueue := [], lookup := none
             words := s.spelling.words.map fun w =>
               if w.state = .queued ∨ w.state = .checking then
                 { w with state := .skipped, skip := some .unavailable }
               else w }))))) .ok)) ∧
     (∀ (a b c : Byte) (data : List Byte),
       let offset := 65536 * a.toNat + 256 * b.toNat + c.toNat
       let writes (u : State) (x : Status) : Prop :=
         exec (.dictWrite tag ([a, b, c] ++ data)) s =
           .next (reply 0x63 tag (u, { status := x, data := [] }))
       let fits := offset % 4 = 0 ∧ 0x3000 + offset + 32 ≤ endOfMemory m.sizeCode
       (data.length ≠ 32 → writes h .badValue) ∧
       (data.length = 32 → m.state = .absent → writes h .noMemory) ∧
       (data.length = 32 → m.state ≠ .absent → m.downloadOpen = false → writes h .notOpen) ∧
       (data.length = 32 → m.state ≠ .absent → m.downloadOpen = true → m.dictWrite ≠ none → writes h .busy) ∧
       (data.length = 32 → m.state ≠ .absent → m.downloadOpen = true → m.dictWrite = none →
         (¬fits → writes h .badValue) ∧
         (fits → m.protect ≠ 0 → writes h .isProtected) ∧
         (fits → m.protect = 0 →
           writes (grant (askMemory .dictWrite (.write (0x3000 + offset) (data.take 4))
             { h with memory := { m with
                 dictWrite := some { offset := offset, data := data, done := 0 } } })) .accepted))) ∧
     (m.state = .absent → closes h .noMemory) ∧
     (m.state ≠ .absent → m.downloadOpen = false → closes h .notOpen) ∧
     (m.state ≠ .absent → m.downloadOpen = true → m.dictWrite ≠ none → closes h .busy) ∧
     (m.state ≠ .absent → m.downloadOpen = true → m.dictWrite = none →
       closes (grant (askMemory .dictClose (.read 0x3000)
         { h with memory := { m with downloadOpen := false, dictClose := true } })) .accepted))

/-- R159, R160: a request joins the tail of its level's list; the arbiter grants the oldest of the highest level
that holds one, when the memory is free; a write into a covered region is not granted: its operation ends with a
MEMORY (PROTECTED) event and the next request is judged. R158: a user that gives up its operation has its requests
withdrawn, and the result of its transaction in hand is not used. The 20 ms of a write's busy poll are counted from
its grant (the model's choice, log entry 3). -/
def Obligations.arbiter_grants_the_oldest_of_the_highest_level : Prop :=
  ∀ s : State,
    let m := s.memory
    let free := m.current = none ∧ m.busy = false ∧ m.detection = .none
    let begun (r : Request) (x : MemoryController) : State :=
      match r.access with
      | .read _ =>
        { s with memory := { x with current := some { request := r, live := true, busyUntil := none } } }
      | _ =>
        { s with
          memory := { x with current := some { request := r, live := true, busyUntil := some (s.now + 200) } }
          chip := { s.chip with writeLatch := true, busyFlag := true } }
    let refused (r : Request) : Prop := ∃ a d, r.access = .write a d ∧
      ((m.protect = 1 ∧ 0x3000 ≤ a) ∨ (m.protect = 2 ∧ 0x1200 ≤ a) ∨ 3 ≤ m.protect)
    let granted (r : Request) (x : MemoryController) : Prop :=
      (free → ¬refused r → grant s = begun r x) ∧
      (free → refused r →
        grant s = grant (endOperation r.user
          (raise .memory 2 ([byte (operationOf s r.user).code] ++ r.access.addressBytes) { s with memory := x })))
    (¬free → grant s = s) ∧
    (m.level1 = [] → m.level2 = [] → m.level3 = [] → m.level4 = [] → grant s = s) ∧
    (∀ r rest, m.level1 = r :: rest → granted r { m with level1 := rest }) ∧
    (∀ r rest, m.level1 = [] → m.level2 = r :: rest → granted r { m with level2 := rest }) ∧
    (∀ r rest, m.level1 = [] → m.level2 = [] → m.level3 = r :: rest → granted r { m with level3 := rest }) ∧
    (∀ r rest, m.level1 = [] → m.level2 = [] → m.level3 = [] → m.level4 = r :: rest →
      granted r { m with level4 := rest }) ∧
    (∀ u a, askMemory u (.read a) s = { s with memory :=
      if u = .directory ∨ u = .fetch then { m with level1 := m.level1 ++ [{ user := u, access := .read a }] }
      else { m with level2 := m.level2 ++ [{ user := u, access := .read a }] } }) ∧
    (∀ u a d, askMemory u (.write a d) s = { s with memory :=
      if u = .dictWrite then { m with level4 := m.level4 ++ [{ user := u, access := .write a d }] }
      else { m with level3 := m.level3 ++ [{ user := u, access := .write a d }] } }) ∧
    (∀ u n, askMemory u (.statusWrite n) s = { s with memory :=
      { m with level3 := m.level3 ++ [{ user := u, access := .statusWrite n }] } }) ∧
    (∀ u, ∃ current, withdrawUser u s = { s with memory :=
        { m with
          level1 := m.level1.filter fun r => r.user != u, level2 := m.level2.filter fun r => r.user != u
          level3 := m.level3.filter fun r => r.user != u, level4 := m.level4.filter fun r => r.user != u
          current := current } } ∧
      (∀ t, m.current = some t → current = some (if t.request.user = u then { t with live := false } else t)) ∧
      (m.current = none → current = none))

/-- R158: a transaction that ends: a read hands its user the bytes that stand in the memory; a write has stored
its bytes, and no other byte of the memory changes; a status write has set the protect field. What the end of the
event does leaves the memory's bytes alone. What each user then does is stated in
`Obligations.wheel_and_memory_operations_advance`, `Obligations.lookup_advances_read_by_read` and
`Obligations.spelling_reads_and_user_word_operations_advance`.
R158, R166: the busy poll of a write reaches its limit: the write fails with a MEMORY (FAILED) event, busy stays set,
and the memory holds the write's bytes as far as it reached and the old bytes beyond, among them the settings record's
check byte (how far it reached is a free value, and that every failed write is so is an inference: log entry 4); when
the flag reads clear, busy becomes clear and the arbiter grants. That BUSY_CLEAR with busy clear and WRITE_BUSY_LIMIT with no
limit running change nothing (log entry 3), and that a failed status write is reported with the address 0xFFFFFF (log
entry 9), are the model's choices. -/
def Obligations.transactions_end_or_fail : Prop :=
  (∀ (s : State) (t : Transaction), s.memory.detection = .none → s.memory.current = some t →
     transactionWithin s = true → memoryCanonical s →
     let c := s.chip
     let ended (x : Chip) : State := { s with chip := x, memory := { s.memory with current := none } }
     ∃ x u, exec .transactionEnd s = .next (textEvent u) ∧
       (textEvent u).chip.cells = x.cells ∧ (textEvent u).chip.protectField = x.protectField ∧
       x.width = c.width ∧
       (t.live = false → u = ended x) ∧
       (∀ a, t.request.access = .read a → x = c ∧
         (t.live = true → ∃ data, u = readEnd t.request.user data (ended x) ∧ data.length = 4 ∧
           ∀ k < 4, c.width = some s.memory.state.width → data[k]? = some (c.cells.read (a + k)))) ∧
       (∀ a d, t.request.access = .write a d →
         (t.live = true → u = writeEnd t.request.user (ended x)) ∧
         x.writeLatch = false ∧ x.busyFlag = false ∧ x.protectField = c.protectField ∧
         (∀ k b, d[k]? = some b → x.cells.read (a + k) = b) ∧
         (∀ n, n < a ∨ a + d.length ≤ n → x.cells.read n = c.cells.read n)) ∧
       (∀ n, t.request.access = .statusWrite n →
         (t.live = true → u = writeEnd t.request.user (ended x)) ∧
         x = { c with protectField := n, writeLatch := false, busyFlag := false })) ∧
  (∀ s : State,
     (s.memory.busy = true →
       exec .busyClear s = .next (textEvent
         { s with memory := { s.memory with busy := false }, chip := { s.chip with busyFlag := false } })) ∧
     (s.memory.busy = false → exec .busyClear s = .next s) ∧
     (∀ t limit, s.memory.current = some t → t.busyUntil = some limit → memoryCanonical s →
       ∃ x, exec .writeBusyLimit s = .next (textEvent (endOperation t.request.user
           (raise .memory 1 ([byte (operationOf s t.request.user).code] ++ t.request.access.addressBytes)
             { s with
               now := max s.now limit, fresh := s.fresh + 1, chip := x
               memory := { s.memory with current := none, busy := true } }))) ∧
         x.width = s.chip.width ∧
         (∀ a d, t.request.access = .write a d → x.writeLatch = false ∧ x.busyFlag = s.chip.busyFlag ∧
           x.protectField = s.chip.protectField ∧ x.cells.read 0x00FF = s.chip.cells.read 0x00FF ∧
           ∃ reach, reach ≤ d.length ∧ (∀ k b, k < reach → d[k]? = some b → x.cells.read (a + k) = b) ∧
             ∀ n, n < a ∨ a + reach ≤ n → x.cells.read n = s.chip.cells.read n) ∧
         (∀ n, t.request.access = .statusWrite n → x.cells = s.chip.cells ∧ x.writeLatch = false)) ∧
     ((∀ t, s.memory.current = some t → t.busyUntil = none) → exec .writeBusyLimit s = .next s))

/-- The ends of reads and writes at the Wheel Unit: the directory reading (R47), the fetch of a profile (R48; the slot
number of BAD-PROFILE is the serial memory's: log entry 9), the glyph map that an active profile gives (R53), and
the 81 writes of a store (R52). The ends of the writes of SAVE-SETTINGS (R166), SET-PROTECT (R161) and DICT-WRITE
(R163); and what becomes of each operation at a write that fails or is refused
(log entry 24). -/
def Obligations.wheel_and_memory_operations_advance : Prop :=
  (∀ (s : State) (data : List Byte),
     let w := s.wheel
     let k := w.directoryRead
     let b := (data.getD 0 0).toNat
     let listed : WheelUnit := { w with
       directory := w.directory.set k (if 1 ≤ b ∧ b ≤ 63 then some b else none), directoryRead := k + 1 }
     let loaded : State := { s with wheel := { listed with directoryState := .loaded } }
     (k + 1 < 24 → readEnd .directory data s =
       askMemory .directory (.read (0x1200 + 320 * (k + 1))) { s with wheel := listed }) ∧
     (24 ≤ k + 1 → (∀ c, w.fetch ≠ some { code := c, progress := .waitingDirectory }) →
       readEnd .directory data s = loaded) ∧
     (∀ c, 24 ≤ k + 1 → w.fetch = some { code := c, progress := .waitingDirectory } →
       fetchSearches c loaded (readEnd .directory data s))) ∧
  (∀ (s : State) (data before : List Byte) (c d slot : Nat),
     let w := s.wheel
     w.fetch = some { code := c, progress := .reading d slot before } → slot < w.cache.length →
     let bytes := before ++ data
     (bytes.length < 320 → readEnd .fetch data s =
       askMemory .fetch (.read (0x1200 + 320 * d + bytes.length))
         { s with wheel := { w with fetch := some { code := c, progress := .reading d slot bytes } } }) ∧
     (∀ p, 320 ≤ bytes.length → holdsProfile bytes p → p.code = c →
       readEnd .fetch data s =
         raise .wheel 0 [byte p.pitch.code, if p.pitch = s.composer.format.pitch then 0 else 1, 1]
           { s with wheel := { w with
               fetch := none, cache := w.cache.set slot (some p), active := some slot
               recency := slot :: w.recency.filter (· != slot), resolution := .settled
               glyphMap := buildMap p.petals } }) ∧
     (320 ≤ bytes.length → (∀ p, holdsProfile bytes p → p.code ≠ c) →
       ∃ t, t = raise .wheel 2 [byte c, byte d]
           { s with wheel := { w with fetch := none, cache := w.cache.set slot none } } ∧
         readEnd .fetch data s =
           raise .wheel 1 [byte c] { t with wheel := { t.wheel with resolution := .unresolved } })) ∧
  (∀ (petals : List PetalEntry) (c : Byte), c ≠ 0 →
     let carrying := (List.range petals.length).filter fun i => (petals[i]?).any fun e => e.glyph == c
     let listed := (buildMap petals).find? fun e => e.code == c
     (carrying = [] → listed = none) ∧
     (carrying ≠ [] → listed = some { code := c, petals := carrying.take 2 })) ∧
  (∀ (s : State) (slot done : Nat), s.wheel.store = some { slot := slot, done := done } →
     let w := s.wheel
     let g := w.staging
     let header (code : Nat) : List Byte :=
       [byte code, byte g.pitch.code, byte g.spaceWidth,
         match g.underscore with | none => 0xFF | some u => byte u]
     let image := header g.code ++ (g.petals.flatMap fun e => match e with
       | some e => [e.glyph, byte e.width, byte (e.impression + if e.accent then 128 else 0)]
       | none => [0, 0, 0]) ++ List.replicate 28 0
     let directory := if done = 0 then w.directory.set slot none else w.directory
     let goes (a : Access) : Prop := writeEnd .store s = askMemory .store a
       { s with wheel := { w with directory := directory, store := some { slot := slot, done := done + 1 } } }
     (done + 1 < 80 → goes (.write (0x1200 + 320 * slot + 4 * (done + 1)) ((image.drop (4 * (done + 1))).take 4))) ∧
     (done + 1 = 80 → goes (.write (0x1200 + 320 * slot) (header g.code))) ∧
     (80 < done + 1 → writeEnd .store s = raise .memory 0 [2]
       { s with wheel := { w with
           directory := w.directory.set slot (some g.code), store := none
           staging := { g with state := .empty } } }) ∧
     endOperation .store s = { s with wheel := { w with
       directory := w.directory.set slot none, store := none, staging := { g with state := .empty } } }) ∧
  (∀ s : State,
     let m := s.memory
     let after (x : MemoryController) : State := { s with memory := x }
     (∀ image done, m.save = some { image := image, done := done } →
       (done + 1 < 48 → writeEnd .settings s =
         askMemory .settings (.write (0x0040 + 4 * (done + 1)) ((image.drop (4 * (done + 1))).take 4))
           (after { m with save := some { image := image, done := done + 1 } })) ∧
       (48 ≤ done + 1 → writeEnd .settings s = raise .memory 0 [3] (after { m with save := none }))) ∧
     endOperation .settings s = after { m with save := none } ∧
     (∀ level, m.protectChange = some level → writeEnd .protect s =
       raise .memory 0 [4] (after { m with protect := level, protectChange := none })) ∧
     endOperation .protect s = after { m with protectChange := none } ∧
     (∀ offset d done, m.dictWrite = some { offset := offset, data := d, done := done } →
       (done + 1 < 8 → writeEnd .dictWrite s =
         askMemory .dictWrite (.write (0x3000 + offset + 4 * (done + 1)) ((d.drop (4 * (done + 1))).take 4))
           (after { m with dictWrite := some { offset := offset, data := d, done := done + 1 } })) ∧
       (8 ≤ done + 1 → writeEnd .dictWrite s =
         raise .memory 0 ([5] ++ be24 offset) (after { m with dictWrite := none }))) ∧
     endOperation .dictWrite s = after { m with dictWrite := none })

/-- R130 to R133: the head of the check queue becomes CHECKING and its lookup begins with the first read of the
bucket table (a read past the end of memory is not made: log entry 25); then the lookup goes on read by read: the
bucket's extent, the comparison of its entries within 256 bytes, and the user-word slots whose index entry holds
the hash, each read to its length byte (log entry 25); and its result is applied to a word that is live in the same
generation. -/
def Obligations.lookup_advances_read_by_read : Prop :=
  (∀ s : State,
     let x := s.spelling
     (x.lookup ≠ none ∨ x.unit ≠ .available ∨ x.checkQueue = [] → beginLookup s = s) ∧
     (∀ id rest w b, x.lookup = none → x.unit = .available → x.checkQueue = id :: rest →
       x.words.find? (fun w => w.id == id) = some w → x.status = .valid b →
       let entry := 0x3000 + 4 + 3 * (w.hash % b)
       entry + 4 ≤ endOfMemory s.memory.sizeCode →
       beginLookup s = askMemory .lookup (.read entry)
         { s with spelling := { x with
             checkQueue := rest
             words := x.words.map fun w => if w.id = id then { w with state := .checking } else w
             lookup := some
               { word := id, generation := w.generation, hash := w.hash, progress := .entryLow
                 letters := (s.line.cells.filter fun c => c.word == some id).map fun c =>
                   letterValue (c.glyph.getD 0) } } })) ∧
  (∀ (s : State) (l : Lookup) (data : List Byte), s.spelling.lookup = some l →
     let x := s.spelling
     let most := endOfMemory s.memory.sizeCode
     let reads (address : Nat) (p : LookupProgress) (u : State) : Prop :=
       u = askMemory .lookup (.read address)
         { s with spelling := { x with lookup := some { l with progress := p } } }
     let result (good : Bool) (u : State) : Prop :=
       let ended : State := { s with spelling := { x with lookup := none } }
       let word := x.words.find? fun w => w.id == l.word
       let judged : State := { s with spelling := { x with
         lookup := none
         words := x.words.map fun w =>
           if w.id = l.word then { w with state := if good then .good else .unknown } else w } }
       (word = none → u = ended) ∧
       (∀ w, word = some w →
         (w.generation ≠ l.generation → u = ended) ∧
         (w.generation = l.generation → good = true ∨ w.accepted = true → u = releaseAdvance judged) ∧
         (w.generation = l.generation → good = false → w.accepted = false → u = releaseAdvance
           (raise .spell 0 [byte w.id, byte w.first, byte w.count] (askSound .doubleBeep judged))))
     let userWords (k : Nat) (u : State) : Prop :=
       (15 < l.letters.length ∨ (∀ i, ¬lowestWith x.userIndex l.hash k i) → result false u) ∧
       (∀ i, l.letters.length ≤ 15 → lowestWith x.userIndex l.hash k i → reads (0x0200 + 16 * i) (.slot i []) u)
     let dictionary (offset : Nat) (p : LookupProgress) (u : State) : Prop :=
       (0x3000 + offset + 4 ≤ most → reads (0x3000 + offset) p u) ∧
       (most < 0x3000 + offset + 4 → userWords 0 u)
     let u := readEnd .lookup data s
     (∀ b, l.progress = .entryLow → x.status = .valid b →
       dictionary (4 + 3 * (l.hash % b) + 4) (.entryHigh data) u) ∧
     (∀ low, l.progress = .entryHigh low →
       let n (i : Nat) : Nat := ((low ++ data).getD i 0).toNat
       let start := 65536 * n 0 + 256 * n 1 + n 2
       let stop := min (65536 * n 3 + 256 * n 4 + n 5) (most - 0x3000)
       (stop ≤ start → userWords 0 u) ∧
       (start < stop → dictionary start (.scan start (stop - start) []) u)) ∧
     (∀ start extent bytes (entries : List (List Byte)) (tail : List Byte),
       l.progress = .scan start extent bytes → (∀ e ∈ entries, 1 ≤ e.length ∧ e.length ≤ 24) →
       (∀ e ∈ entries, e.map BitVec.toNat ≠ l.letters) →
       bytes ++ data = entries.flatMap (fun e => byte e.length :: e) ++ tail →
       let room := min extent 256
       let passed := (entries.map fun e => e.length + 1).sum
       (passed = room → userWords 0 u) ∧
       (passed < room → tail = [] →
         dictionary (start + (bytes ++ data).length) (.scan start extent (bytes ++ data)) u) ∧
       (∀ n rest, passed < room → tail = n :: rest →
         (n = 0 ∨ 24 < n.toNat ∨ room < passed + 1 + n.toNat → userWords 0 u) ∧
         (1 ≤ n.toNat → n.toNat ≤ 24 → passed + 1 + n.toNat ≤ room →
           (rest.length < n.toNat →
             dictionary (start + (bytes ++ data).length) (.scan start extent (bytes ++ data)) u) ∧
           (n.toNat ≤ rest.length → (rest.take n.toNat).map BitVec.toNat = l.letters → result true u)))) ∧
     (∀ k bytes, l.progress = .slot k bytes →
       let all := bytes ++ data
       (all.length < slotReach all → reads (0x0200 + 16 * k + all.length) (.slot k all) u) ∧
       (slotReach all ≤ all.length → slotHolds all l.letters → result true u) ∧
       (slotReach all ≤ all.length → ¬slotHolds all l.letters → userWords (k + 1) u)))

/-- R140: the dictionary header read in STARTING, the index loading slot by slot, and the state in which the unit then
stands. R164: the header read of a DICT-CLOSE. R138, R139: the comparisons of ADD-WORD and REMOVE-WORD, their writes
and their ends. That the header read in STARTING leaves the dictionary status where a download is open (log entry 24),
that a slot is read to its length byte also where its letters make it free (log entry 25), and that a closed download
raises SPELL (AVAILABLE) before MEMORY (DONE) (log entry 36), are the model's choices. -/
def Obligations.spelling_reads_and_user_word_operations_advance : Prop :=
  (∀ (s : State) (data : List Byte),
     let x := s.spelling
     let n (i : Nat) : Nat := (data.getD i 0).toNat
     let b := 256 * n 2 + n 3
     let valid := n 0 = 0xD1 ∧ n 1 = 0x5C ∧ 1 ≤ b ∧ b ≤ 4096
     let closed (status : DictStatus) (unit : UnitState) : State :=
       { s with memory := { s.memory with dictClose := false }, spelling := { x with status := status, unit := unit } }
     (∀ status, (s.memory.downloadOpen = true → status = x.status) →
       (s.memory.downloadOpen = false → status = if valid then .valid b else .bad) →
       readEnd .dictHeader data s = askMemory .indexLoad (.read 0x0200)
         { s with spelling := { x with status := status, startup := .index 0 [] } }) ∧
     (valid → x.unit ≠ .unavailable →
       readEnd .dictClose data s = raise .memory 0 [6] (closed (.valid b) x.unit)) ∧
     (valid → x.unit = .unavailable →
       readEnd .dictClose data s = raise .memory 0 [6] (raise .spell 4 [1] (closed (.valid b) .available))) ∧
     (¬valid → readEnd .dictClose data s = raise .memory 6 [6] (closed .bad x.unit))) ∧
  (∀ (s : State) (k : Nat) (bytes data : List Byte) (e : Option Nat), s.spelling.startup = .index k bytes →
     let x := s.spelling
     let all := bytes ++ data
     let u := readEnd .indexLoad data s
     (all.length < slotReach all → u = askMemory .indexLoad (.read (0x0200 + 16 * k + all.length))
       { s with spelling := { x with startup := .index k all } }) ∧
     (slotReach all ≤ all.length →
       (∀ letters, slotHolds all letters → e = some (wordHash letters)) →
       ((∀ letters, ¬slotHolds all letters) → e = none) →
       let filled : SpellingUnit := { x with userIndex := x.userIndex.set k e }
       let without (reason : Byte) : State := releaseAdvance (raise .spell 5 [2, reason] (withdrawUser .lookup
         { s with spelling := { filled with
             startup := .none, unit := .unavailable, checkQueue := [], lookup := none
             words := x.words.map fun w =>
               if w.state = .queued ∨ w.state = .checking then
                 { w with state := .skipped, skip := some .unavailable }
               else w } }))
       (k < 255 → u = askMemory .indexLoad (.read (0x0200 + 16 * (k + 1)))
         { s with spelling := { filled with startup := .index (k + 1) [] } }) ∧
       (255 ≤ k → x.unit = .starting →
         (∀ b, x.status = .valid b → u = raise .spell 4 [1]
           { s with spelling := { filled with startup := .none, unit := .available } }) ∧
         (x.status = .download → u = without 2) ∧
         (x.status = .bad ∨ x.status = .none → u = without 1)))) ∧
  (∀ (s : State) (kind : UserWordKind) (letters : List Nat) (hash : Nat) (p : UserWordProgress),
     s.spelling.userOp = some { kind := kind, letters := letters, hash := hash, progress := p } →
     let x := s.spelling
     let image := (byte letters.length :: letters.map byte) ++ List.replicate (15 - letters.length) 0
     let op : Byte := match kind with | .add => 0 | .remove => 1
     let goes (p : UserWordProgress) (a : Access) (u : State) : Prop :=
       u = askMemory .userWord a { s with spelling := { x with
         userOp := some { kind := kind, letters := letters, hash := hash, progress := p } } }
     let ends (reason : Nat) (x : SpellingUnit) (u : State) : Prop :=
       u = raise .memory reason [op] { s with spelling := { x with userOp := none } }
     (∀ k bytes data, p = .compare k bytes →
       let all := bytes ++ data
       let u := readEnd .userWord data s
       (all.length < slotReach all →
         goes (.compare k all) (.read (0x0200 + 16 * k + all.length)) u) ∧
       (slotReach all ≤ all.length → slotHolds all letters →
         (kind = .add → ends 3 x u) ∧
         (kind = .remove → goes (.write k 0) (.write (0x0200 + 16 * k) [0, 0, 0, 0]) u)) ∧
       (slotReach all ≤ all.length → ¬slotHolds all letters →
         (∀ i, lowestWith x.userIndex hash (k + 1) i → goes (.compare i []) (.read (0x0200 + 16 * i)) u) ∧
         ((∀ i, ¬lowestWith x.userIndex hash (k + 1) i) →
           (kind = .remove → ends 5 x u) ∧
           (kind = .add → none ∉ x.userIndex → ends 4 x u) ∧
           (∀ before after, kind = .add → x.userIndex = before ++ none :: after → none ∉ before →
             goes (.write before.length 0)
               (.write (0x0200 + 16 * before.length + 4) ((image.drop 4).take 4)) u)))) ∧
     (∀ slot done, p = .write slot done →
       let u := writeEnd .userWord s
       (kind = .add → done < 2 → goes (.write slot (done + 1))
         (.write (0x0200 + 16 * slot + 4 * (done + 2)) ((image.drop (4 * (done + 2))).take 4)) u) ∧
       (kind = .add → done = 2 → goes (.write slot 3) (.write (0x0200 + 16 * slot) (image.take 4)) u) ∧
       (kind = .add → 3 ≤ done → ends 0 { x with
         userIndex := x.userIndex.set slot (some hash)
         ignoreList := x.ignoreList.filter (· != { letters := letters, hash := hash }) } u) ∧
       (kind = .remove → ends 0 { x with userIndex := x.userIndex.set slot none } u)) ∧
     endOperation .userWord s = { s with spelling := { x with userOp := none } })

/-- R155: detection step by step: the busy poll, the header with two address bytes and then with three, the size
and the protect level, the settings record; and the end of the poll at its limit. What its end does is stated in
`Obligations.end_of_detection_starts_the_part`. That DETECTION_POLL_LIMIT outside the poll changes nothing is the
model's choice (log entry 3), and so are the transactions of detection and what a memory still busy answers (log entry
20). -/
def Obligations.detection_finds_the_width_and_the_level : Prop :=
  ∀ s : State,
    let c := s.chip
    let next (x : Detection) : State := { s with memory := { s.memory with detection := x } }
    let header (w : AddressWidth) (most n : Nat) : Prop := c.width = some w ∧
      c.cells.read 0 = 0xB7 ∧ c.cells.read 1 = 0x4E ∧ c.cells.read 2 = 1 ∧ (c.cells.read 3).toNat = n ∧
      1 ≤ n ∧ n ≤ most
    let found (x : MemoryState) (n : Nat) : State := { s with memory := { s.memory with
      state := x, sizeCode := some n, protect := c.protectField, detection := .settings [] } }
    let ends (u : State) : Prop := exec .transactionEnd s = .next (textEvent u)
    (∀ limit, s.memory.detection = .poll limit →
      ends { next .header2 with chip := { c with busyFlag := false } } ∧
      exec .detectionPollLimit s = .next { next .header2 with now := max s.now limit }) ∧
    ((∀ limit, s.memory.detection ≠ .poll limit) → exec .detectionPollLimit s = .next s) ∧
    (s.memory.detection = .header2 →
      (∀ n, header .two 2 n → ends (found .twoByte n)) ∧
      ((∀ n, ¬header .two 2 n) → ends (next .header3))) ∧
    (s.memory.detection = .header3 →
      (∀ n, header .three 3 n → ends (found .threeByte n)) ∧
      ((∀ n, ¬header .three 3 n) →
        ends (endDetection none { s with memory := { s.memory with
          state := .absent, sizeCode := none, protect := 3 } }))) ∧
    (∀ bytes, s.memory.detection = .settings bytes →
      ∃ four, four.length = 4 ∧
        (c.width = some s.memory.state.width →
          four = (List.range 4).map fun k => c.cells.read (0x0040 + bytes.length + k)) ∧
        (bytes.length + 4 < 192 → ends (next (.settings (bytes ++ four)))) ∧
        (192 ≤ bytes.length + 4 → ends (endDetection (Settings.ofImage (bytes ++ four)) s)))

/-- R156, R183, R83: the end of detection, whose operand is the valid settings record or none: the settings or the
defaults at their owners (log entry 26), the START report with its source, the directory and the dictionary header
asked for or the memory ABSENT, homing begun or the pause for an open cover, and the first render allowed. -/
def Obligations.end_of_detection_starts_the_part : Prop :=
  ∀ (settings : Option Settings) (y : Settings) (s : State),
    (settings = some y ∨ settings = none ∧ y =
      { format := { pitch := .twelve, leftMargin := 120, rightMargin := 1080, spacing := 8, alignment := .left,
                    mode := .direct, wrap := true, spelling := .flag, impression := 0, speed := 3, bellZone := 60 }
        tabStops := [], composites := [], contrast := 8, volume := 2, mask := 0x07FF
        watch1 := { position := 0, span := 1, kind := .note, enabled := false }
        watch2 := { position := 0, span := 1, kind := .note, enabled := false } }) →
    let f := s.composer.format
    let moved := y.format.leftMargin ≠ f.leftMargin ∧ s.line.cells = []
    let set : State :=
      { s with
        memory := { s.memory with detection := .none }
        composer := { s.composer with
          format := y.format, printPoint := if moved then y.format.leftMargin else s.composer.printPoint }
        line := { s.line with composing := { s.line.composing with
          leftMargin := if moved then y.format.leftMargin else s.line.composing.leftMargin } }
        zone := { s.zone with
          tabStops := y.tabStops, watch1 := { y.watch1 with enabled := false },
          watch2 := { y.watch2 with enabled := false } }
        wheel := { s.wheel with composites := y.composites }
        display := { s.display with contrast := y.contrast }
        sounder := { s.sounder with volume := y.volume }
        link := { s.link with
          mask := y.mask ||| 1
          reports := s.link.reports.filter fun e => (y.mask ||| 1).getLsbD e.kind.index } }
    ∃ t u v : State,
      endDetection settings s = { v with display := { v.display with rendered := true } } ∧
      (y.format.spelling = f.spelling → t = set) ∧
      (t.composer = set.composer ∧ t.line.composing = set.line.composing ∧ t.zone = set.zone ∧
        t.wheel = set.wheel ∧ t.display = set.display ∧ t.sounder = set.sounder ∧ t.link = set.link ∧
        t.memory.detection = .none ∧ t.engine = s.engine) ∧
      (f.spelling = .hold → y.format.spelling ≠ .hold → ∀ w ∈ t.spelling.words, w.holdMark = false) ∧
      (f.spelling ≠ .off → y.format.spelling = .off →
        t.spelling.checkQueue = [] ∧ t.spelling.lookup = none ∧
          ∀ w ∈ t.spelling.words, w.state ≠ .queued ∧ w.state ≠ .checking) ∧
      (∃ told, told = raise .start 0
          [1, (match s.memory.state with | .detecting => 0 | .absent => 1 | .twoByte => 2 | .threeByte => 3),
            byte (s.memory.sizeCode.getD 0), byte s.memory.protect, if settings = none then 1 else 0] t ∧
        (s.memory.state ≠ .absent → u =
          askMemory .dictHeader (.read 0x3000) (askMemory .directory (.read 0x1200)
            { told with
              wheel := { told.wheel with directoryState := .loading, directoryRead := 0 }
              spelling := { told.spelling with startup := .header } })) ∧
        (s.memory.state = .absent → s.spelling.unit ≠ .unavailable → u =
          releaseAdvance (raise .spell 5 [2, 0] (withdrawUser .lookup
            { told with
              wheel := { told.wheel with
                directoryState := .absent, directory := List.replicate 24 none, directoryRead := 0 }
              spelling := { told.spelling with
                unit := .unavailable, status := .absent, userIndex := List.replicate 256 none, startup := .none
                checkQueue := [], lookup := none
                words := told.spelling.words.map fun w =>
                  if w.state = .queued ∨ w.state = .checking then
                    { w with state := .skipped, skip := some .unavailable }
                  else w } })))) ∧
      (s.sensors.cover.debounced = .opened → v =
        raise .engine 5 [1] { u with engine := { u.engine with state := .paused .cover } }) ∧
      (s.sensors.cover.debounced = .closed → v =
        raise .engine 1 [0]
          { u with engine :=
            { u.engine with
              state := .homing, homing := some .carriageSearch, homingTravel := 0,
              homingLimit := some (u.now + 7750), carriage := none, wheelPosition := none, order := none,
              groupWait := none, faultDetail := none } })

/-- What SAVE-SETTINGS writes, detection reads back: the image of allowed settings is 192 bytes, and the record
in them is those settings; an image with one byte changed is no valid record. -/
def Obligations.settings_image_reads_back : Prop :=
  ∀ x : Settings, settingsAllowed x →
    x.image.length = 192 ∧ Settings.ofImage x.image = some x ∧
      ∀ i b, i < 192 → b ≠ x.image.getD i 0 → Settings.ofImage (x.image.set i b) = none

/-! ### Key items (R4, R5, R8, R10, R17 to R20, R27 to R36, R97 to R107, R113 to R117, R124 to R129) -/

/-- A glyph item that does not wrap: what it is refused with, in the order of the rules (log entry 10 on the order
of LINE-FULL), or the cell it creates, the bell, and the Spelling Unit told. R111: the conditions that a subject
matches, a bit each, as every ZONE event carries them (the bits and the layout: log entry 9). -/
def Obligations.glyph_item_creates_a_cell_or_is_refused : Prop :=
  (∀ (s : State) (code : Byte) (rest : List Byte) (kind : CellKind) (a : Nat),
     s.composer.keyQueue = code :: rest → (waitsFor s code).any = false → isGlyphCode code = true →
     let f := s.composer.format
     let p := s.composer.printPoint
     let taken : State :=
       { s with
         composer := { s.composer with keyQueue := rest, waits := .clear }
         display := { s.display with overlay := none }
         zone := { s.zone with holdPass := false, holdNoted := false } }
     let base := match s.wheel.composites.find? fun e => e.code == code with
       | some e => e.base | none => code
     let struck := if kind = .glyph then code else base
     let ends (v : State) : Prop := exec .glyphItem s = .next (textEvent (rearmAfter p v))
     let zoneEvent (cause : Nat) (acting : Byte) : State :=
       raise .zone cause
         ([acting, byte (matched taken s.line.composing.leftMargin p (p + a))] ++ be16 p ++ be16 (p + a) ++
           be16 p ++ [code]) taken
     let full := 200 ≤ s.line.cells.length
     let c (past : Bool) : Cell :=
       { id := freeId s.composer.nextCellId (s.line.cells.map (·.id)), kind := kind, glyph := some code,
         start := p, advance := a, bold := s.composer.bold, underline := s.composer.underline,
         pastMargin := past, state := if f.mode = .direct then .pending else .held, word := none,
         strikes := [], underlineDropped := false, unprintable := false }
     let created (past : Bool) : Prop :=
       ∃ u v, ends (spellCell (c past).id v) ∧
         u = { taken with
           line := { s.line with cells := s.line.cells ++ [c past] }
           composer := { taken.composer with
             nextCellId := ((c past).id + 1) % 256, printPoint := p + a,
             openRun := s.composer.openRun ++ [(c past).id],
             marginRelease := s.composer.marginRelease && !past } } ∧
         (f.rightMargin - f.bellZone ≤ p → s.zone.bellArmed = true → v = raise .zone 3
           ([2, byte (matched taken s.line.composing.leftMargin p (p + a))] ++ be16 p ++ be16 (p + a) ++
             be16 (p + a) ++ [code])
           (askSound .bell { u with zone := { u.zone with bellArmed := false } })) ∧
         (p < f.rightMargin - f.bellZone ∨ s.zone.bellArmed = false → v = u)
     (glyphPetals s.wheel code = [] →
       (∀ e, s.wheel.composites.find? (fun e => e.code == code) = some e →
         glyphPetals s.wheel e.base = [] ∨ glyphPetals s.wheel e.accent = []) →
       ends (askSound .error (raise .key 1 [code] taken))) ∧
     ((kind = .glyph ∧ glyphPetals s.wheel code ≠ [] ∨
         kind = .composite ∧ glyphPetals s.wheel code = [] ∧
           ∃ e, s.wheel.composites.find? (fun e => e.code == code) = some e ∧
             glyphPetals s.wheel e.base ≠ [] ∧ glyphPetals s.wheel e.accent ≠ []) →
       (f.pitch = .ten ∧ a = 12 ∨ f.pitch = .twelve ∧ a = 10 ∨ f.pitch = .fifteen ∧ a = 8 ∨
         f.pitch = .proportional ∧ ∃ q profile e, (glyphPetals s.wheel struck).head? = some q ∧
           activeProfile s.wheel = some profile ∧ profile.petals[q]? = some e ∧ a = e.width) →
       (p + a ≤ f.rightMargin → ¬full → created false) ∧
       (p + a ≤ f.rightMargin ∨ 1800 < p + a ∨ s.composer.marginRelease = true → full →
         ends (askSound .error (raise .key 2 [code] taken))) ∧
       (f.rightMargin < p + a → 1800 < p + a → ¬full → ends (askSound .error (zoneEvent 1 0xFF))) ∧
       (f.rightMargin < p + a → p + a ≤ 1800 → s.composer.marginRelease = true → ¬full → created true) ∧
       (f.rightMargin < p + a → p + a ≤ 1800 → s.composer.marginRelease = false →
         (f.mode = .direct ∨ f.wrap = false ∨ ∀ d ∈ composingCells s.line.cells,
           (d.kind = .glyph ∨ d.kind = .composite) → d.id ∈ s.composer.openRun) →
         (¬full → ends (askSound .bell (zoneEvent 0 0))) ∧
         (full → ends (askSound .error (raise .key 2 [code] taken)))))) ∧
  (∀ (s : State) (left start stop : Nat),
     let f := s.composer.format
     let m := matched s left start stop
     let meets (w : Watch) : Prop :=
       ∃ x, (x = start ∨ start ≤ x ∧ x < stop) ∧ w.position ≤ x ∧ x < w.position + w.span
     m < 32 ∧
     (m.testBit 0 = true ↔ f.rightMargin < stop ∨ f.rightMargin ≤ start) ∧
     (m.testBit 1 = true ↔ start < left) ∧
     (m.testBit 2 = true ↔ f.rightMargin - f.bellZone ≤ start) ∧
     (1 ≤ s.zone.watch1.span → (m.testBit 3 = true ↔ meets s.zone.watch1)) ∧
     (1 ≤ s.zone.watch2.span → (m.testBit 4 = true ↔ meets s.zone.watch2)))

/-- R30 to R33: a glyph item, simple or composite, that reaches the wrap. Two cells that would not fit are LINE-FULL
(log entry 10); where the open word and the new cell do not fit the new line, the item is refused at the right stop,
its subject starting at the print point (the model's choice, log entry 15);
otherwise the LINE-END cell, the ended line's record, the open word placed again from the new left margin, the new
cell, and the release mark. An open word with a cell that is not HELD is not moved. R35: LINE (JUSTIFY-ABANDONED) where
alignment abandons the line; then, in the order of R32, the bell, the words of the old line and of the new cell
(`Obligations.words_begin_join_complete_and_classify`), and the release advance up to the LINE-END cell
(`Obligations.release_request_releases_the_carriage_line`). R145: the window keeps to its cell, and that this restarts
the cursor is an inference (log entry 28). -/
def Obligations.glyph_item_wraps_the_open_word : Prop :=
  ∀ (s : State) (code : Byte) (rest : List Byte) (kind : CellKind) (before run : List Cell) (e : LineEnding),
    s.composer.keyQueue = code :: rest → (waitsFor s code).any = false → isGlyphCode code = true →
    (kind = .glyph ∧ glyphPetals s.wheel code ≠ [] ∨
      kind = .composite ∧ glyphPetals s.wheel code = [] ∧
        ∃ e, s.wheel.composites.find? (fun e => e.code == code) = some e ∧
          glyphPetals s.wheel e.base ≠ [] ∧ glyphPetals s.wheel e.accent ≠ []) →
    let f := s.composer.format
    let p := s.composer.printPoint
    let left := s.line.composing.leftMargin
    let a := glyphAdvance f s.wheel code
    let total := f.leftMargin + (run.map (·.advance)).sum
    s.line.cells = before ++ run → (s.line.cells.map (·.id)).Nodup → (∀ c ∈ before, c.kind ≠ .lineEnd) →
    (s.composer.openRun = run.map (·.id) ∧ (∀ c ∈ run, c.state = .held) ∨
      run = [] ∧ ∃ c ∈ before, c.id ∈ s.composer.openRun ∧ c.state ≠ .held) →
    (∀ c ∈ run, c.kind = .glyph ∨ c.kind = .composite) →
    (∃ c ∈ before, (c.kind = .glyph ∨ c.kind = .composite) ∧ c.id ∉ s.composer.openRun) →
    f.mode ≠ .direct → f.wrap = true → s.composer.marginRelease = false →
    f.rightMargin < p + a → p + a ≤ 1800 →
    e = { rightMargin := f.rightMargin, alignment := f.alignment, spacing := f.spacing,
          spaceWidth := spaceAdvance f s.wheel, mode := f.mode, ending := .byWrap, moved := false } →
    let le : Cell :=
      { id := freeId s.composer.nextCellId (s.line.cells.map (·.id)), kind := .lineEnd, glyph := none,
        start := (match before.getLast? with | some c => c.start + c.advance | none => left), advance := 0,
        bold := false, underline := false, pastMargin := false, state := .held, word := none, strikes := [],
        underlineDropped := false, unprintable := false }
    let aligned := alignLine s.line.composing.releasedFlush e (before ++ [le])
    let ended := if f.mode = .line then aligned.cells else before ++ [le]
    let c : Cell :=
      { id := freeId ((le.id + 1) % 256) ((ended ++ run).map (·.id)), kind := kind, glyph := some code,
        start := total, advance := a, bold := s.composer.bold, underline := s.composer.underline,
        pastMargin := false, state := .held, word := none, strikes := [], underlineDropped := false,
        unprintable := false }
    let taken : State :=
      { s with
        composer := { s.composer with keyQueue := rest, waits := .clear }
        display := { s.display with overlay := none }
        zone := { s.zone with holdPass := false, holdNoted := false } }
    let ends (v : State) : Prop := exec .glyphItem s = .next (textEvent (rearmAfter p v))
    (198 < s.line.cells.length → ends (askSound .error (raise .key 2 [code] taken))) ∧
    (s.line.cells.length ≤ 198 → f.rightMargin < total + a → ends (askSound .bell (raise .zone 0
      ([0, byte (matched taken left p (p + a))] ++ be16 p ++ be16 (p + a) ++ be16 p ++ [code]) taken))) ∧
    (s.line.cells.length ≤ 198 → total + a ≤ f.rightMargin → ∃ v : State, ends v ∧
      v.line.cells.map fixedPart = (ended ++ placeFrom f.leftMargin run ++ [c]).map fixedPart ∧
      (∀ d ∈ composingCells v.line.cells, d.state = .held) ∧
      v.line.releaseMark = some le.id ∧
      v.line.composing = { leftMargin := f.leftMargin, ended := none, releasedFlush := false } ∧
      v.line.paper = some
        { leftMargin := left, releasedFlush := s.line.composing.releasedFlush,
          ended := some { e with moved := decide (ended ≠ before ++ [le]) } } ∧
      v.composer = { s.composer with
        keyQueue := rest, waits := .clear, nextCellId := (c.id + 1) % 256, printPoint := total + a,
        openRun := run.map (·.id) ++ [c.id] } ∧
      v.zone.bellArmed = decide (total < f.rightMargin - f.bellZone) ∧
      v.strikeQueue = s.strikeQueue ∧ v.engine = s.engine ∧ v.wheel = s.wheel ∧ v.chip = s.chip ∧
      let d := taken.display
      let ws := if before.length < d.windowStart then d.windowStart + 1 else d.windowStart
      let u : State := { (if aligned.abandoned = true then raise .line 2 [] taken else taken) with
        line := { s.line with
          cells := ended ++ placeFrom f.leftMargin run ++ [c]
          composing := v.line.composing
          paper := v.line.paper }
        composer := v.composer
        zone := { taken.zone with bellArmed := true }
        display :=
          if d.rendered = true ∧ ws ≠ d.windowStart then
            { d with windowStart := ws, cursorBlinkOn := true, cursorBlinkDue := s.now + 4000 }
          else { d with windowStart := ws } }
      let belled : State :=
        if f.rightMargin - f.bellZone ≤ total then
          raise .zone 3
            ([2, byte (matched u f.leftMargin total (total + a))] ++ be16 total ++ be16 (total + a) ++
              be16 (total + a) ++ [code])
            (askSound .bell { u with zone := { u.zone with bellArmed := false } })
        else u
      let told := spellCell c.id (spellLineEnd belled)
      v = releaseAdvance { told with line := { told.line with releaseMark := some le.id } }) ∧
    (placeFrom f.leftMargin run).length = run.length ∧
    (∀ (i : Nat) (d : Cell), run[i]? = some d → (placeFrom f.leftMargin run)[i]? =
      some { d with start := f.leftMargin + ((run.take i).map (·.advance)).sum })

/-- R29, R14: a space item by the table of the right margin; in WORD mode the cell is an ending cell;
that it takes no bold is an inference (log entry 16). R10: a space item taken with 200 cells is LINE-FULL.
R4, R20: the attribute items, the margin-release item, and a code that names no item. -/
def Obligations.space_attribute_and_unassigned_items : Prop :=
  (∀ (s : State) (rest : List Byte),
     s.composer.keyQueue = 0x20 :: rest → (waitsFor s 0x20).any = false → s.line.cells.length < 200 →
     let f := s.composer.format
     let p := s.composer.printPoint
     let a := spaceAdvance f s.wheel
     let arm := s.composer.marginRelease
     let id := freeId s.composer.nextCellId (s.line.cells.map (·.id))
     let taken : State :=
       { s with
         composer := { s.composer with keyQueue := rest, waits := .clear }
         display := { s.display with overlay := none }
         zone := { s.zone with holdPass := false, holdNoted := false } }
     let creates (advance : Nat) (past : Bool) : Prop :=
       ∃ (c : Cell) (v : State), exec .spaceItem s = .next (textEvent (rearmAfter p v)) ∧
         c = { id := id, kind := .space, glyph := some 0x20, start := p, advance := advance, bold := false,
               underline := s.composer.underline, pastMargin := past,
               state := if f.mode = .direct then .pending else .held, word := none, strikes := [],
               underlineDropped := false, unprintable := false } ∧
         v.line.cells.map fixedPart = (s.line.cells ++ [c]).map fixedPart ∧
         (f.mode ≠ .word → v.line = { s.line with cells := s.line.cells ++ [c] }) ∧
         v.line.releaseMark = (if f.mode = .word then some id else s.line.releaseMark) ∧
         v.spelling.openWord = .none ∧ v.spelling.pendingApostrophe = none ∧
         v.composer = { s.composer with
           keyQueue := rest, waits := .clear, nextCellId := (id + 1) % 256, printPoint := p + advance,
           openRun := [], marginRelease := arm && !past } ∧
         v.zone = taken.zone ∧ v.strikeQueue = s.strikeQueue ∧ v.engine = s.engine ∧ v.wheel = s.wheel ∧
         let told := spellCell id
           { taken with line := { s.line with cells := s.line.cells ++ [c] }, composer := v.composer }
         v = if f.mode = .word then
             releaseAdvance { told with line := { told.line with releaseMark := some id } }
           else told
     (f.pitch = .ten → a = 12) ∧ (f.pitch = .twelve → a = 10) ∧ (f.pitch = .fifteen → a = 8) ∧
     (∀ x, f.pitch = .proportional → activeProfile s.wheel = some x → a = x.spaceWidth) ∧
     (p + a ≤ f.rightMargin → creates a false) ∧
     (f.rightMargin < p + a → arm = true → p + a ≤ 1800 → creates a true) ∧
     (f.rightMargin < p + a → arm = false → p < f.rightMargin → creates (f.rightMargin - p) false) ∧
     (f.rightMargin < p + a → arm = false → f.rightMargin ≤ p → creates 0 false) ∧
     (f.rightMargin < p + a → 1800 < p + a → arm = true →
       exec .spaceItem s = .next (textEvent (askSound .error (raise .zone 1
         ([0xFF, byte (matched taken s.line.composing.leftMargin p (p + a))] ++ be16 p ++ be16 (p + a) ++
           be16 p ++ [0x20]) taken))))) ∧
  (∀ (s : State) (rest : List Byte),
     s.composer.keyQueue = 0x20 :: rest → (waitsFor s 0x20).any = false → 200 ≤ s.line.cells.length →
     let taken : State :=
       { s with
         composer := { s.composer with keyQueue := rest, waits := .clear }
         display := { s.display with overlay := none }
         zone := { s.zone with holdPass := false, holdNoted := false } }
     exec .spaceItem s = .next (textEvent (askSound .error (raise .key 2 [0x20] taken)))) ∧
  (∀ (s : State) (code : Byte) (rest : List Byte), s.composer.keyQueue = code :: rest →
     (waitsFor s code).any = false →
     let taken (x : Composer) : State :=
       { s with
         composer := { x with keyQueue := rest, waits := .clear }
         display := { s.display with overlay := none }
         zone := { s.zone with holdPass := false, holdNoted := false } }
     let x := s.composer
     (code = 0x02 → exec .boldItem s = .next (textEvent (taken { x with bold := !x.bold }))) ∧
     (code = 0x15 →
       exec .underlineItem s = .next (textEvent (taken { x with underline := !x.underline }))) ∧
     (code = 0x1B →
       exec .marginReleaseItem s = .next (textEvent (taken { x with marginRelease := true }))) ∧
     (isGlyphCode code = false →
       code ∉ [0x20, 0x02, 0x08, 0x09, 0x0D, 0x15, 0x1B, 0x1C, 0x1D, 0x1E] →
       exec .unassignedItem s = .next (textEvent (raise .key 0 [code] (taken x)))))

/-- R28: a TAB item reaches to the least stop beyond the print point within the right margin, else to the right
margin; at or beyond the right margin it is refused at the right stop.
R8, R14, R15: a RETURN item ends the composing line: its LINE-END cell, its record with the ending fields as
they stand, a new record, the alignment of LINE mode, the bell armed, the words of the line completed, and but for DIRECT
mode the release mark and the release advance.
That their cells take no attribute is an inference (log entry 16).
R10: a TAB or RETURN item taken with 200 cells is LINE-FULL; that a TAB item at the right margin is so too is the
model's choice (log entry 10). -/
def Obligations.tab_and_return_items_reach_and_end : Prop :=
  (∀ (s : State) (rest : List Byte) (target : Nat),
     s.composer.keyQueue = 0x09 :: rest → (waitsFor s 0x09).any = false → s.line.cells.length < 200 →
     s.zone.tabStops.Pairwise (· < ·) →
     let f := s.composer.format
     let p := s.composer.printPoint
     let id := freeId s.composer.nextCellId (s.line.cells.map (·.id))
     let taken : State :=
       { s with
         composer := { s.composer with keyQueue := rest, waits := .clear }
         display := { s.display with overlay := none }
         zone := { s.zone with holdPass := false, holdNoted := false } }
     (f.rightMargin ≤ p →
       exec .tabItem s = .next (textEvent (askSound .bell (raise .zone 0
         ([0, byte (matched taken s.line.composing.leftMargin p p)] ++ be16 p ++ be16 p ++ be16 p ++ [0x09])
         taken)))) ∧
     (p < f.rightMargin →
       (target ∈ s.zone.tabStops ∧ p < target ∧ target ≤ f.rightMargin ∧
           (∀ t ∈ s.zone.tabStops, p < t → target ≤ t) ∨
         target = f.rightMargin ∧ ∀ t ∈ s.zone.tabStops, t ≤ p ∨ f.rightMargin < t) →
       ∃ (c : Cell) (v : State), exec .tabItem s = .next (textEvent (rearmAfter p v)) ∧
         c = { id := id, kind := .tab, glyph := none, start := p, advance := target - p, bold := false,
               underline := false, pastMargin := false,
               state := if f.mode = .direct then .pending else .held, word := none, strikes := [],
               underlineDropped := false, unprintable := false } ∧
         v.line.cells.map fixedPart = (s.line.cells ++ [c]).map fixedPart ∧
         (f.mode ≠ .word → v.line = { s.line with cells := s.line.cells ++ [c] }) ∧
         v.line.releaseMark = (if f.mode = .word then some id else s.line.releaseMark) ∧
         v.spelling.openWord = .none ∧ v.spelling.pendingApostrophe = none ∧
         v.composer = { s.composer with
           keyQueue := rest, waits := .clear, nextCellId := (id + 1) % 256, printPoint := target,
           openRun := [] } ∧
         v.zone = taken.zone ∧ v.strikeQueue = s.strikeQueue ∧ v.engine = s.engine ∧ v.wheel = s.wheel ∧
         let told := spellCell id
           { taken with line := { s.line with cells := s.line.cells ++ [c] }, composer := v.composer }
         v = if f.mode = .word then
             releaseAdvance { told with line := { told.line with releaseMark := some id } }
           else told)) ∧
  (∀ (s : State) (rest : List Byte) (e : LineEnding),
     s.composer.keyQueue = 0x0D :: rest → (waitsFor s 0x0D).any = false → s.line.cells.length < 200 →
     let f := s.composer.format
     let left := s.line.composing.leftMargin
     e = { rightMargin := f.rightMargin, alignment := f.alignment, spacing := f.spacing,
           spaceWidth := spaceAdvance f s.wheel, mode := f.mode, ending := .byReturn, moved := false } →
     let le : Cell :=
       { id := freeId s.composer.nextCellId (s.line.cells.map (·.id)), kind := .lineEnd, glyph := none,
         start := s.composer.printPoint, advance := 0, bold := false, underline := false, pastMargin := false,
         state := if f.mode = .direct then .pending else .held, word := none, strikes := [],
         underlineDropped := false, unprintable := false }
     let line := s.line.cells ++ [le]
     let ended := if f.mode = .line then (alignLine s.line.composing.releasedFlush e line).cells else line
     ∃ v : State, exec .returnItem s = .next (textEvent (rearmAfter s.composer.printPoint v)) ∧
       v.line.cells.map fixedPart = ended.map fixedPart ∧
       (f.mode = .direct → v.line.cells = ended) ∧
       v.line.releaseMark = (if f.mode = .direct then s.line.releaseMark else some le.id) ∧
       v.line.composing = { leftMargin := f.leftMargin, ended := none, releasedFlush := false } ∧
       v.line.paper = some
         { leftMargin := left, releasedFlush := s.line.composing.releasedFlush,
           ended := some { e with moved := decide (ended ≠ line) } } ∧
       v.composer = { s.composer with
         keyQueue := rest, waits := .clear, nextCellId := (le.id + 1) % 256, printPoint := f.leftMargin,
         openRun := [] } ∧
       v.zone = { s.zone with bellArmed := true, holdPass := false, holdNoted := false } ∧
       v.strikeQueue = s.strikeQueue ∧ v.engine = s.engine ∧ v.wheel = s.wheel ∧ v.chip = s.chip ∧
       let told := spellLineEnd { s with
         line := { s.line with cells := ended, composing := v.line.composing, paper := v.line.paper }
         composer := v.composer
         zone := v.zone
         display := { s.display with overlay := none } }
       v = if f.mode = .direct then told
         else releaseAdvance { told with line := { told.line with releaseMark := some le.id } }) ∧
  (∀ (s : State) (code : Byte) (rest : List Byte), s.composer.keyQueue = code :: rest →
     (waitsFor s code).any = false → 200 ≤ s.line.cells.length →
     let taken : State :=
       { s with
         composer := { s.composer with keyQueue := rest, waits := .clear }
         display := { s.display with overlay := none }
         zone := { s.zone with holdPass := false, holdNoted := false } }
     let full : State := askSound .error (raise .key 2 [code] taken)
     (code = 0x09 → exec .tabItem s = .next (textEvent full)) ∧
     (code = 0x0D → exec .returnItem s = .next (textEvent full)))

/-- R18: with HELD cells on the composing line, BACKSPACE removes the newest one, and CORRECT does the same.
R18, R114: BACKSPACE without HELD cells moves the print point back by the advance of the newest cell that ends
there, or by the nominal advance, judged at the left stop; RELOCATE moves it to the greatest end. That a CORRECT item
that removes a HELD cell closes the open word for wrap as BACKSPACE does is the model's choice (log entry 15).
The removal itself is `Obligations.words_that_lose_cells_go_or_reopen`'s. R117: after every item, the bell is armed
where the print point has changed and lies left of the zone start. -/
def Obligations.backspace_relocate_and_correct_move_back : Prop :=
  (∀ (s : State) (code : Byte) (rest : List Byte) (before after : List Cell) (c : Cell),
     s.composer.keyQueue = code :: rest → (waitsFor s code).any = false → code = 0x08 ∨ code = 0x1C →
     composingCells s.line.cells = before ++ c :: after → c.state = .held → (∀ d ∈ after, d.state ≠ .held) →
     (s.line.cells.map (·.id)).Nodup →
     ∃ v : State, exec (itemCommand code) s = .next (textEvent (rearmAfter s.composer.printPoint v)) ∧
       v.line.cells.map fixedPart = (s.line.cells.filter fun d => d.id != c.id).map fixedPart ∧
       v.line.composing = s.line.composing ∧ v.line.paper = s.line.paper ∧
       (s.line.releaseMark ≠ some c.id → v.line.releaseMark = s.line.releaseMark) ∧
       (∀ l r, s.line.releaseMark = some c.id → s.line.cells = l ++ c :: r →
         v.line.releaseMark = l.getLast?.map (·.id)) ∧
       v.composer = { s.composer with
         keyQueue := rest, waits := .clear, printPoint := c.start, openRun := [] } ∧
       v.spelling.pendingApostrophe = none ∧
       v.zone = { s.zone with holdPass := false, holdNoted := false } ∧
       v.strikeQueue = s.strikeQueue ∧ v.engine = s.engine ∧ v.wheel = s.wheel ∧ v.correction = s.correction ∧
       let completed := completeOpenWord
         { s with
           composer := { s.composer with keyQueue := rest, waits := .clear }
           display := { s.display with overlay := none }
           zone := { s.zone with holdPass := false, holdNoted := false } }
       let removed := removeCells true (fun d => d.id == c.id)
         { completed with composer := { completed.composer with openRun := [] } }
       v = { removed with composer := { removed.composer with printPoint := c.start } }) ∧
  (∀ (s : State) (rest : List Byte) (a : Nat),
     let f := s.composer.format
     let p := s.composer.printPoint
     let left := s.line.composing.leftMargin
     let line := composingCells s.line.cells
     let w (z : Nat) (arm : Bool) : State :=
       let t := completeOpenWord
         { s with
           composer := { s.composer with keyQueue := rest, waits := .clear }
           display := { s.display with overlay := none }
           zone := { s.zone with holdPass := false, holdNoted := false } }
       { t with composer := { t.composer with openRun := [], printPoint := z, marginRelease := arm } }
     let arm := s.composer.marginRelease
     (∀ c, s.composer.keyQueue = 0x08 :: rest → (waitsFor s 0x08).any = false →
       (∀ d ∈ line, d.state ≠ .held) →
       ((∃ l r, line = l ++ c :: r ∧ c.start + c.advance = p ∧ a = c.advance ∧
           ∀ d ∈ r, d.start + d.advance ≠ p) ∨
         (∀ d ∈ line, d.start + d.advance ≠ p) ∧
           a = (match f.pitch with | .ten => 12 | .twelve => 10 | .fifteen => 8 | .proportional => 6)) →
       let ends (v : State) : Prop := exec .backspaceItem s = .next (textEvent (rearmAfter p v))
       (left + a ≤ p → ends (w (p - a) arm)) ∧
       (p < left + a → arm = true → ends (w (p - a) false)) ∧
       (p < left + a → arm = false → ∃ z d, z = (if left ≤ p then left else p) ∧
         ends (raise .zone 2 ([1] ++ d) (w z arm)) ∧
         d = [byte (matched (w z arm) left (p - a) (p - a))] ++ be16 (p - a) ++ be16 (p - a) ++ be16 z ++
           [0x08])) ∧
     (s.composer.keyQueue = 0x1E :: rest → (waitsFor s 0x1E).any = false →
       (line = [] → exec .relocateItem s = .next (textEvent (rearmAfter p (w left arm)))) ∧
       (∀ c ∈ line, (∀ d ∈ line, d.start + d.advance ≤ c.start + c.advance) →
         exec .relocateItem s = .next (textEvent (rearmAfter p (w (c.start + c.advance) arm)))))) ∧
  (∀ (s : State) (before : Nat),
     let p := s.composer.printPoint
     let zoneStart := s.composer.format.rightMargin - s.composer.format.bellZone
     (p = before ∨ zoneStart ≤ p → rearmAfter before s = s) ∧
     (p ≠ before → p < zoneStart →
       rearmAfter before s = { s with zone := { s.zone with bellArmed := true } }))

/-- R97 to R101: a CORRECT item without HELD cells on the composing line, by the state of the last cell that ends
at the print point. Where several of its records name other wheels, the newest one's is reported (log entry 31); a
group interrupted and waiting at its resumption counts as in progress (log entry 23).
R97, R104, R105: where no cell of the composing line ends there: the LINE-END cell, whose line is reopened or is
unreachable; a cell of the paper line, which is unreachable; or no target. That a CORRECT item which removes no HELD cell
leaves the open word for wrap as it is, but for the cell it takes out, is the model's choice (log entry 15). That ZONE
comes before KEY where there is no target is an inference (log entry 36). -/
def Obligations.correct_item_acts_by_the_state_of_its_target : Prop :=
  (∀ (s w : State) (rest : List Byte) (before after : List Cell) (c : Cell),
    s.composer.keyQueue = 0x1C :: rest → (waitsFor s 0x1C).any = false →
    (∀ d ∈ composingCells s.line.cells, d.state ≠ .held) → (s.line.cells.map (·.id)).Nodup →
    composingCells s.line.cells = before ++ c :: after → c.start + c.advance = s.composer.printPoint →
    (∀ d ∈ after, d.start + d.advance ≠ s.composer.printPoint) →
    w = completeOpenWord
      { s with
        composer := { s.composer with keyQueue := rest, waits := .clear }
        display := { s.display with overlay := none }
        zone := { s.zone with holdPass := false, holdNoted := false } } →
    let p := s.composer.printPoint
    let moved (t : State) : State := { t with composer := { t.composer with printPoint := c.start } }
    let ends (v : State) : Prop := exec .correctItem s = .next (textEvent (rearmAfter p v))
    let started := s.engine.groupStarted = true ∧ ∃ o os, s.strikeQueue = o :: os ∧ o.cell = c.id
    let removes (queue : List Order) (wait : Option GroupWait) : Prop := ∃ v : State, ends v ∧
      v = removeCells false (fun d => d.id == c.id)
        { w with
          strikeQueue := queue
          engine := { s.engine with groupWait := wait }
          composer := { w.composer with printPoint := c.start } } ∧
      v.line.cells.map fixedPart = (s.line.cells.filter fun d => d.id != c.id).map fixedPart ∧
      v.composer = { w.composer with printPoint := c.start, openRun := s.composer.openRun.filter (· != c.id) } ∧
      v.strikeQueue = queue ∧ v.correction = s.correction ∧ v.sounder = w.sounder ∧
      v.engine.order = s.engine.order ∧ v.engine.groupStarted = s.engine.groupStarted
    let stops : Prop := ends (raise .key 3 ([0x1C] ++ be16 p) w)
    let wheelGood := ∀ r ∈ c.strikes, r.wheel = s.wheel.mounted
    let tapeIn := s.sensors.tape.debounced = .closed
    let refusedBy (v : State) : Prop :=
      (∀ l r x, c.strikes = l ++ r :: x → r.wheel ≠ s.wheel.mounted → (∀ y ∈ x, y.wheel = s.wheel.mounted) →
        v = askSound .error (raise .lift 1
          [byte c.id, byte r.wheel, byte s.wheel.mounted, byte c.strikes.length] w)) ∧
      (wheelGood → ¬tapeIn → v = askSound .error (raise .lift 2 [byte c.id, byte c.strikes.length] w))
    (c.state = .pending → removes s.strikeQueue s.engine.groupWait) ∧
    (c.state = .ordered → ¬started → removes (s.strikeQueue.filter fun o => o.cell != c.id)
      (if s.strikeQueue.head?.map (·.cell) = some c.id then none else s.engine.groupWait)) ∧
    (c.state = .ordered → started → s.correction.deferred = some c.id → stops) ∧
    (c.state = .ordered → started → s.correction.deferred ≠ some c.id →
      (wheelGood → tapeIn → ends (moved { w with correction := { s.correction with deferred := some c.id } })) ∧
      (¬(wheelGood ∧ tapeIn) → ∃ v, ends v ∧ refusedBy v)) ∧
    (c.state = .struck → c.strikes = [] → removes s.strikeQueue s.engine.groupWait) ∧
    (c.state = .struck → c.strikes ≠ [] → (∃ g ∈ s.correction.waiting, g.cell = c.id) → stops) ∧
    (c.state = .struck → c.strikes ≠ [] → (∀ g ∈ s.correction.waiting, g.cell ≠ c.id) →
      (¬(wheelGood ∧ tapeIn) → ∃ v, ends v ∧ refusedBy v) ∧
      (wheelGood → tapeIn → ∃ g : LiftGroup, g.cell = c.id ∧ g.orders.length = c.strikes.length ∧
        (∀ (i : Nat) (r : StrikeRecord), c.strikes.reverse[i]? = some r → g.orders[i]? = some
          { cell := c.id, position := r.position, last := decide (i + 1 = c.strikes.length),
            work := .lift r.kind r.petal r.wheel r.impression }) ∧
        (s.correction.waiting = [] → s.strikeQueue.length + c.strikes.length ≤ 32 →
          ends (moved
            { w with
              strikeQueue := s.strikeQueue ++ g.orders
              line := { w.line with cells := w.line.cells.map fun d =>
                if d.id = c.id then { d with state := .lifting } else d } })) ∧
        (s.correction.waiting ≠ [] ∨ 32 < s.strikeQueue.length + c.strikes.length →
          ends (moved { w with correction :=
            { s.correction with waiting := s.correction.waiting ++ [g] } })))) ∧
    (c.state = .lifting → stops)) ∧
  (∀ (s w : State) (rest : List Byte),
    s.composer.keyQueue = 0x1C :: rest → (waitsFor s 0x1C).any = false →
    (∀ d ∈ composingCells s.line.cells, d.state ≠ .held ∧ d.start + d.advance ≠ s.composer.printPoint) →
    (s.line.cells.map (·.id)).Nodup →
    w = completeOpenWord
      { s with
        composer := { s.composer with keyQueue := rest, waits := .clear }
        display := { s.display with overlay := none }
        zone := { s.zone with holdPass := false, holdNoted := false } } →
    let p := s.composer.printPoint
    let left := s.line.composing.leftMargin
    let ends (v : State) : Prop := exec .correctItem s = .next (textEvent (rearmAfter p v))
    let unreachable (id : Nat) : Prop := ends (askSound .error (raise .lift 3 [byte id] w))
    let nothing : Prop :=
      let a := match s.composer.format.pitch with | .ten => 12 | .twelve => 10 | .fifteen => 8 | .proportional => 6
      let told (v : State) : Prop := ends (raise .key 3 ([0x1C] ++ be16 v.composer.printPoint) v)
      let back (z : Nat) (arm : Bool) : State :=
        { w with composer := { w.composer with printPoint := z, marginRelease := arm } }
      let arm := s.composer.marginRelease
      (left + a ≤ p → told (back (p - a) arm)) ∧
      (p < left + a → arm = true → told (back (p - a) false)) ∧
      (p < left + a → arm = false → ∃ z, z = (if left ≤ p then left else p) ∧
        told (raise .zone 2 ([1, byte (matched (back z arm) left (p - a) (p - a))] ++ be16 (p - a) ++ be16 (p - a) ++
          be16 z ++ [0x1C]) (back z arm)))
    ((∀ d ∈ s.line.cells, d.kind ≠ .lineEnd) → nothing) ∧
    (∀ before e after, s.line.cells = before ++ e :: after → e.kind = .lineEnd →
      (∀ d ∈ before, d.kind ≠ .lineEnd) →
      let atEnd := after = [] ∧ p = left
      let started := s.engine.groupStarted = true ∧ ∃ o os, s.strikeQueue = o :: os ∧ o.cell = e.id
      let mayReopen := (e.state = .held ∨ e.state = .pending ∨ e.state = .ordered ∧ ¬started) ∧
        ∀ r x, s.line.paper = some r → r.ended = some x → x.moved = false
      (atEnd → ¬mayReopen → unreachable e.id) ∧
      (∀ record, atEnd → mayReopen → s.line.paper = some record → ∃ u : State,
        ends (raise .line 3 [byte before.length] u) ∧
        u.line.cells.map fixedPart = before.map fixedPart ∧
        u.line.composing = { record with ended := none } ∧ u.line.paper = none ∧ u.line.releaseMark = none ∧
        u.composer = { w.composer with
          printPoint := e.start, openRun := s.composer.openRun.filter (· != e.id) } ∧
        u.strikeQueue = s.strikeQueue.filter (fun o => o.cell != e.id) ∧
        u.engine.order = s.engine.order ∧ u.correction = s.correction ∧ u.wheel = s.wheel) ∧
      (∀ l c r, ¬atEnd → before = l ++ c :: r → c.start + c.advance = p →
        (∀ d ∈ r, d.start + d.advance ≠ p) → unreachable c.id) ∧
      (¬atEnd → (∀ d ∈ before, d.start + d.advance ≠ p) → nothing)))

/-- R106, R107: a WORD-CORRECT item: with no run there is nothing to lift; a run of cells never printed leaves the
list, and the print point becomes the start of its last cell. The run of a line typed straight on is its spaces,
then its last word. A run of any cells is corrected one after another, each by its state as the target of a CORRECT
item would be: removed, deferred, lifted or made to wait; the first that is refused stops the run; at the end the
Spelling Unit is told of the cells removed. The wheel code of a refusal is log entry 31's, an interrupted group log
entry 23's, the open word for wrap that stays open log entry 15's, the refusal's event before those of
the words log entry 36's. -/
def Obligations.word_correct_item_takes_the_run : Prop :=
  (∀ (s w : State) (rest : List Byte), s.composer.keyQueue = 0x1D :: rest → (waitsFor s 0x1D).any = false →
    (s.line.cells.map (·.id)).Nodup →
    w = completeOpenWord
      { s with
        composer := { s.composer with keyQueue := rest, waits := .clear }
        display := { s.display with overlay := none }
        zone := { s.zone with holdPass := false, holdNoted := false } } →
    let p := s.composer.printPoint
    (correctionRun s = [] →
      exec .wordCorrectItem s = .next (textEvent (raise .key 3 ([0x1D] ++ be16 p) w))) ∧
    (∀ run c, correctionRun s = run ++ [c] → (∀ d ∈ run ++ [c], d.state = .held ∨ d.state = .pending) →
      ∃ v : State, exec .wordCorrectItem s = .next (textEvent (rearmAfter p v)) ∧
        v.line.cells.map fixedPart =
          (s.line.cells.filter fun d => !((run ++ [c]).map (·.id)).contains d.id).map fixedPart ∧
        v.composer.printPoint = c.start ∧ v.composer.keyQueue = rest ∧ v.strikeQueue = s.strikeQueue ∧
        v.engine = s.engine ∧ v.correction = s.correction ∧ v.wheel = s.wheel ∧ v.zone = w.zone)) ∧
  (∀ (s : State) (before word spaces : List Cell) (q : Nat),
    composingCells s.line.cells = before ++ word ++ spaces → ((before ++ word ++ spaces).map (·.id)).Nodup →
    word ≠ [] → (∀ c ∈ word, c.kind = .glyph ∨ c.kind = .composite) → (∀ c ∈ spaces, c.kind = .space) →
    (∀ c ∈ word ++ spaces, 0 < c.advance) → placeFrom q (word ++ spaces) = word ++ spaces →
    s.composer.printPoint = q + ((word ++ spaces).map (·.advance)).sum →
    (∀ c ∈ before, c.start + c.advance ≤ q ∧
      (c.kind = .glyph ∨ c.kind = .composite → c.start + c.advance ≠ q)) →
    correctionRun s = spaces.reverse ++ word.reverse) ∧
  (∀ (s w : State) (rest : List Byte), s.composer.keyQueue = 0x1D :: rest → (waitsFor s 0x1D).any = false →
    correctionRun s ≠ [] →
    w = completeOpenWord
      { s with
        composer := { s.composer with keyQueue := rest, waits := .clear }
        display := { s.display with overlay := none }
        zone := { s.zone with holdPass := false, holdNoted := false } } →
    let r := correctRun 0x1D (correctionRun s) w
    let ends (v : State) : Prop :=
      exec .wordCorrectItem s = .next (textEvent (rearmAfter s.composer.printPoint v))
    (r.removed = [] → ends r.state) ∧
    (r.removed ≠ [] → ends (releaseAdvance (spellRemoved false r.removed r.state)))) ∧
  (∀ s : State, correctRun 0x1D [] s = { state := s, accepted := true, removed := [] }) ∧
  (∀ (s : State) (run : List Cell) (c d : Cell), c ∈ s.line.cells → (s.line.cells.map (·.id)).Nodup → d.id = c.id →
    let all := correctRun 0x1D (d :: run) s
    let p := s.composer.printPoint
    let goesOn (removed : List Cell) (t : State) : Prop :=
      let u : State := { t with composer := { t.composer with printPoint := c.start } }
      all = { correctRun 0x1D run u with removed := removed ++ (correctRun 0x1D run u).removed }
    let stopsWith (t : State) : Prop := all = { state := t, accepted := false, removed := [] }
    let removes (queue : List Order) : Prop := ∃ t : State, goesOn [c] t ∧
      t.line.cells = s.line.cells.filter (fun x => x.id != c.id) ∧ t.strikeQueue = queue ∧
      (s.line.releaseMark ≠ some c.id → t.line.releaseMark = s.line.releaseMark) ∧
      (∀ l r, s.line.releaseMark = some c.id → s.line.cells = l ++ c :: r →
        t.line.releaseMark = l.getLast?.map (·.id)) ∧
      t.composer = { s.composer with openRun := s.composer.openRun.filter (· != c.id) } ∧
      t.spelling = s.spelling ∧ t.correction = s.correction ∧ t.link = s.link ∧ t.sounder = s.sounder ∧
      t.engine.order = s.engine.order ∧ t.engine.groupStarted = s.engine.groupStarted
    let started := s.engine.groupStarted = true ∧ ∃ o os, s.strikeQueue = o :: os ∧ o.cell = c.id
    let wheelGood := ∀ r ∈ c.strikes, r.wheel = s.wheel.mounted
    let tapeIn := s.sensors.tape.debounced = .closed
    let refused : Prop :=
      (∀ l r x, c.strikes = l ++ r :: x → r.wheel ≠ s.wheel.mounted → (∀ y ∈ x, y.wheel = s.wheel.mounted) →
        stopsWith (askSound .error (raise .lift 1
          [byte c.id, byte r.wheel, byte s.wheel.mounted, byte c.strikes.length] s))) ∧
      (wheelGood → ¬tapeIn →
        stopsWith (askSound .error (raise .lift 2 [byte c.id, byte c.strikes.length] s)))
    let stops : Prop := stopsWith (raise .key 3 ([0x1D] ++ be16 p) s)
    (c.state = .held ∨ c.state = .pending ∨ c.state = .struck ∧ c.strikes = [] → removes s.strikeQueue) ∧
    (c.state = .ordered → ¬started → removes (s.strikeQueue.filter fun o => o.cell != c.id)) ∧
    (c.state = .ordered → started → s.correction.deferred = some c.id → stops) ∧
    (c.state = .ordered → started → s.correction.deferred ≠ some c.id →
      (wheelGood → tapeIn → goesOn [] { s with correction := { s.correction with deferred := some c.id } }) ∧
      refused) ∧
    (c.state = .struck → c.strikes ≠ [] → (∃ g ∈ s.correction.waiting, g.cell = c.id) → stops) ∧
    (c.state = .struck → c.strikes ≠ [] → (∀ g ∈ s.correction.waiting, g.cell ≠ c.id) →
      refused ∧
      (wheelGood → tapeIn → ∃ g : LiftGroup, g.cell = c.id ∧ g.orders.length = c.strikes.length ∧
        (∀ (i : Nat) (r : StrikeRecord), c.strikes.reverse[i]? = some r → g.orders[i]? = some
          { cell := c.id, position := r.position, last := decide (i + 1 = c.strikes.length),
            work := .lift r.kind r.petal r.wheel r.impression }) ∧
        (s.correction.waiting = [] → s.strikeQueue.length + c.strikes.length ≤ 32 → goesOn []
          { s with
            strikeQueue := s.strikeQueue ++ g.orders
            line := { s.line with cells := s.line.cells.map fun x =>
              if x.id = c.id then { x with state := .lifting } else x } }) ∧
        (s.correction.waiting ≠ [] ∨ 32 < s.strikeQueue.length + c.strikes.length → goesOn []
          { s with correction := { s.correction with waiting := s.correction.waiting ++ [g] } }))) ∧
    (c.state = .lifting → stops))

/-- R34 to R36: alignment of an ended line. Justification gives each of the G inner spaces floor(E / G), the first
E mod G one more, and moves every cell by what stands before it has gained; the last glyph then ends at the right
margin. CENTER and RIGHT move the line; the trailing cells collapse to its end. -/
def Obligations.line_end_alignment_meets_the_margins : Prop :=
  ∀ (flush : Bool) (e : LineEnding) (l r trailing : List Cell) (first last : Cell),
    let ink (c : Cell) : Prop := c.kind = .glyph ∨ c.kind = .composite
    (∀ c ∈ l, ¬ink c) → ink first → ink last → (∀ c ∈ trailing, ¬ink c) →
    ∀ body, body = l ++ first :: r → body.getLast? = some last →
    let line := body ++ trailing
    let stop := last.start + last.advance
    let room := e.rightMargin - stop
    let inner (cells : List Cell) : Nat := (cells.filter fun c => c.kind == .space).length
    let gaps := inner r
    let applies := e.mode = .line ∧ flush = false ∧ (∀ c ∈ line, c.state = .held) ∧ stop ≤ e.rightMargin
    let collapsed := trailing.map fun c => { c with start := e.rightMargin, advance := 0 }
    let left : Prop := alignLine flush e line = { cells := line, abandoned := false }
    (¬applies ∨ e.alignment = .left → left) ∧
    (applies → e.alignment = .right → alignLine flush e line =
      { cells := (body.map fun c => { c with start := c.start + room }) ++ collapsed, abandoned := false }) ∧
    (applies → e.alignment = .center → alignLine flush e line =
      { cells := (body.map fun c => { c with start := c.start + room / 2 }) ++
          trailing.map fun c => { c with start := stop + room / 2, advance := 0 }
        abandoned := false }) ∧
    (applies → e.alignment = .justify → e.ending = .byReturn ∨ gaps = 0 → left) ∧
    (applies → e.alignment = .justify → e.ending = .byWrap → gaps ≠ 0 → 2 * e.spaceWidth < room / gaps →
      alignLine flush e line = { cells := line, abandoned := true }) ∧
    (applies → e.alignment = .justify → e.ending = .byWrap → gaps ≠ 0 → room / gaps ≤ 2 * e.spaceWidth →
      ∃ body', alignLine flush e line = { cells := body' ++ collapsed, abandoned := false } ∧
        body'.length = body.length ∧
        (∀ c, body'.getLast? = some c → c.start + c.advance = e.rightMargin) ∧
        (∀ (i : Nat) c, body[i]? = some c →
          let k := inner ((body.take i).drop l.length)
          let gain := if l.length < i ∧ c.kind = .space then
            room / gaps + (if k < room % gaps then 1 else 0) else 0
          body'[i]? = some
            { c with
              start := c.start + k * (room / gaps) + min k (room % gaps), advance := c.advance + gain }))

/-! ### Groups, orders and firings (R9, R37 to R42, R65 to R74, R84 to R86) -/

/-- R37 to R41: the group of a cell: MAIN, BOLD at start + 1, ACCENT, then UNDER, each with its candidates and
class, positions beyond 1,800 taken out, the last order flagged; of a SPACE cell, UNDER alone, where it is underlined;
of a LINE-END cell, the RETURN order.
R67, R68, R100: the supply of the strike queue, from state to state: waiting lifts first, while the next fits; none
of it while a lift waits or is deferred; then the cell at the cursor, the first HELD or PENDING one, which waits, passes
without orders, or has its group added at the tail where it fits. -/
def Obligations.group_of_a_cell_holds_its_strikes_in_order : Prop :=
  (∀ (f : Format) (w : WheelUnit) (p : Profile) (before after : List Cell) (c : Cell) (code : Byte),
     let b := buildGroup f w p before after c
     let order (position : Nat) (work : OrderWork) : Order :=
       { cell := c.id, position := position, last := false, work := work }
     let width (u : Nat) : Nat :=
       match f.pitch with
       | .ten => 12 | .twelve => 10 | .fifteen => 8
       | .proportional => ((p.petals[u]?).map (·.width)).getD 0
     let under (u : Nat) : List Order := (underOffsets c.advance (width u)).map fun k =>
       order (c.start + k) (.strike .under none [u] (some 1))
     let holds (l : List Order) : Prop :=
       b.orders.map (fun o => { o with last := false }) = l.filter (fun o => o.position ≤ 1800) ∧
         ∀ i o, b.orders[i]? = some o → o.last = decide (i + 1 = b.orders.length)
     (c.glyph = some code → c.kind = .glyph ∨ c.kind = .composite →
       let entry := if c.kind = .composite then w.composites.find? (fun e => e.code == code) else none
       let struck := match entry with | some e => e.base | none => code
       let impression := (glyphPetals w struck).head?.bind fun q => (p.petals[q]?).map (·.impression)
       let ink : List Order :=
         [order c.start (.strike .main (some struck) (glyphPetals w struck) impression)] ++
           (if c.bold then [order (c.start + 1) (.strike .bold (some struck) (glyphPetals w struck) impression)]
             else []) ++
           (match entry with
             | some e => [order c.start (.strike .accent (some e.accent) (glyphPetals w e.accent) (some 1))]
             | none => [])
       holds (ink ++ match c.underline, p.underscore with | true, some u => under u | _, _ => []) ∧
       b.dropped = (c.underline && p.underscore.isNone)) ∧
     (c.kind = .space →
       let nearest (l : List Cell) : Prop := ∃ spaces d rest, l = spaces ++ d :: rest ∧
         (∀ x ∈ spaces, x.kind = .space) ∧ (d.kind = .glyph ∨ d.kind = .composite) ∧ d.underline = true
       let underlined : Prop := c.underline = true ∧ c.advance ≠ 0 ∧ nearest before ∧ nearest after
       (¬underlined → b = { orders := [], dropped := false }) ∧
       (underlined → p.underscore = none → b = { orders := [], dropped := true }) ∧
       (∀ u, underlined → p.underscore = some u → holds (under u) ∧ b.dropped = false)) ∧
     (∀ a u : Nat, 1 ≤ a → 1 ≤ u →
       let n := min 6 ((a + u - 1) / u)
       (n = 1 → underOffsets a u = [0]) ∧
       (n ≠ 1 → underOffsets a u = (List.range n).map fun k => k * (a - u) / (n - 1))) ∧
     (∀ l r x, c.kind = .lineEnd → l.paper = some r → r.ended = some x →
       returnGroup l c = [{ cell := c.id, position := l.composing.leftMargin, last := true,
                            work := .returnLine x.spacing }])) ∧
  (∀ s : State,
     let queue := s.strikeQueue
     let room := 32 - queue.length
     let marked (id : Nat) (x : CellState) (dropped : Bool) (v : State) : State :=
       { v with line := { s.line with cells := s.line.cells.map fun d =>
           if d.id = id then { d with state := x, underlineDropped := d.underlineDropped || dropped } else d } }
     let waits : Prop := supplyQueue s = s
     (∀ g rest, s.correction.waiting = g :: rest →
       (room < g.orders.length → waits) ∧
       (g.orders.length ≤ room → supplyQueue s = supplyQueue (marked g.cell .lifting false
         { s with
           strikeQueue := queue ++ g.orders
           correction := { s.correction with waiting := rest } }))) ∧
     (s.correction.waiting = [] → s.correction.deferred ≠ none → waits) ∧
     (s.correction.waiting = [] → s.correction.deferred = none →
       ((∀ c ∈ s.line.cells, c.state ≠ .held ∧ c.state ≠ .pending) → waits) ∧
       (∀ before c after, s.line.cells = before ++ c :: after →
         (∀ d ∈ before, d.state ≠ .held ∧ d.state ≠ .pending) →
         (c.state = .held → waits) ∧
         (c.state = .pending → (∃ d ∈ before, d.kind = .lineEnd) → waits) ∧
         (c.state = .pending → (∀ d ∈ before, d.kind ≠ .lineEnd) →
           let passes (dropped : Bool) : Prop := supplyQueue s = supplyQueue (marked c.id .struck dropped s)
           let adds (orders : List Order) (dropped : Bool) : Prop :=
             (orders = [] → passes dropped) ∧
             (orders ≠ [] → orders.length ≤ room → supplyQueue s =
               supplyQueue (marked c.id .ordered dropped { s with strikeQueue := queue ++ orders })) ∧
             (room < orders.length → waits)
           let plainSpace : Prop := c.kind = .space ∧ (c.underline = false ∨ c.advance = 0)
           let underSpace : Prop := c.kind = .space ∧ c.underline = true ∧ c.advance ≠ 0
           (c.kind = .tab ∨ plainSpace → passes false) ∧
           (c.kind = .lineEnd → adds (returnGroup s.line c) false) ∧
           (underSpace → (∀ d ∈ after, d.kind = .space) → waits) ∧
           (c.kind = .glyph ∨ c.kind = .composite ∨ underSpace ∧ (∃ d ∈ after, d.kind ≠ .space) →
             (activeProfile s.wheel = none → waits) ∧
             (∀ p, activeProfile s.wheel = some p →
               let b := buildGroup s.composer.format s.wheel p before.reverse after c
               adds b.orders b.dropped))))))

/-- R69, R70, R94: the judgement of a group start, whose steps stop at the first that holds; and the expiry of the
cycle time, after which the start is judged again; that it changes nothing where no CYCLE wait stands is the model's
choice (log entry 3).
R60, R63, R69: the settling at the end of an event: the strike queue is supplied
(`Obligations.group_of_a_cell_holds_its_strikes_in_order`), READY and RUNNING follow it, and a start that is due, in
RUNNING with no order or feed motion in progress and no wait standing, is judged, until none is due; an engine in
IDENTIFYING whose mounted wheel's profile is active leaves it with one report, for the state reached; where a pause is
reached instead, its own report is the one (an inference, log entry 22). -/
def Obligations.group_start_is_judged_in_five_steps : Prop :=
  ∀ s : State,
    let e := s.engine
    let t := syncRunning (supplyQueue s)
    let leaving : Prop := e.state = .identifying ∧ ∃ p, activeProfile s.wheel = some p ∧ p.code = s.wheel.mounted
    let due : Prop := t.engine.state = .running ∧ t.engine.order = none ∧ t.engine.feed = none ∧
      t.strikeQueue ≠ [] ∧ t.engine.groupWait = none
    (e.state = .ready → s.strikeQueue ≠ [] →
      syncRunning s = { s with engine := { e with state := .running, groupWait := none } }) ∧
    (e.state = .running → s.strikeQueue = [] →
      syncRunning s = { s with engine := { e with state := .ready, groupWait := none, groupStarted := false } }) ∧
    (¬(e.state = .ready ∧ s.strikeQueue ≠ []) → ¬(e.state = .running ∧ s.strikeQueue = []) → syncRunning s = s) ∧
    (¬leaving → ¬due → settle s = t) ∧
    (¬leaving → due → settle s = settle (judgeStart t)) ∧
    (leaving →
      let u := settle { s with engine := { e with state := .ready } }
      (u.engine.state = .ready → settle s = raise .engine 3 [0] u) ∧
      (u.engine.state = .running → settle s = raise .engine 4 [0] u) ∧
      (u.engine.state ≠ .ready → u.engine.state ≠ .running → settle s = u)) ∧
    let paperOut := s.sensors.paper.debounced = .opened
    let hot := s.impression.coolingLatch = true ∨ 2400 < s.impression.heat
    let waits := ∃ t, e.cycleTimer = some t ∧ s.now < t + cycleTime s.effectiveSpeed
    (paperOut → judgeStart s = raise .engine 5 [2] { s with engine := { e with state := .paused .paper } }) ∧
    (¬paperOut → s.impression.band = .critical →
      judgeStart s = raise .engine 5 [3] { s with engine := { e with state := .paused .supply } }) ∧
    (¬paperOut → s.impression.band ≠ .critical →
      (hot → judgeStart s = { s with
        engine := { e with groupWait := some .cooling }
        impression := { s.impression with coolingLatch := true } }) ∧
      (¬hot → waits → judgeStart s = { s with engine := { e with groupWait := some .cycle } }) ∧
      (¬hot → ¬waits → judgeStart s = startOrder { s with engine := { e with
        groupWait := none, latchedSpeed := some s.effectiveSpeed, cycleTimer := some s.now,
        groupStarted := true } })) ∧
    (cycleTime 1 = 1000 ∧ cycleTime 2 = 800 ∧ cycleTime 3 = 660 ∧ cycleTime 4 = 600) ∧
    (∀ t, e.groupWait = some .cycle → e.cycleTimer = some t →
      exec .cycleTimeExpiry s = .next (textEvent { s with
        now := max s.now (t + cycleTime s.effectiveSpeed), engine := { e with groupWait := none } })) ∧
    (e.groupWait ≠ some .cycle → exec .cycleTimeExpiry s = .next s)

/-- R42, R56, R71 to R74, R102: how the order at the head starts: a STRIKE with the candidate of shorter travel and its
class, or skipped with its flag and WHEEL (SKIPPED) where none is left; a LIFT where its wheel is mounted and tape
is in, or abandoned; a RETURN with carriage and platen at once. R56, R71, R101, R122: the end of a cell's strikes:
STRUCK, the NOTE watch, and the deferred lift built at the head of the strike queue. The wheel code that a refused lift
reports, and WHEEL-CHANGED before TAPE-OUT where both checks of an order fail, are the model's choices (log entry 31).
That WHEEL comes before ZONE, and ZONE before LIFT, is an inference (log entry 36). R42: the travel of the wheel. -/
def Obligations.orders_start_or_are_skipped_by_the_wheel : Prop :=
  (∀ (s : State) (o : Order) (rest : List Order), s.strikeQueue = o :: rest →
     let e := s.engine
     let far := (e.carriage.getD 0 - (o.position : Int)).natAbs
     let turn (q : Nat) : Nat := travel (e.wheelPosition.getD 0) q
     let carriage : Option Nat := if far = 0 then none else some (s.now + (3000 + far / 4 * 10))
     let starts (p : OrderProgress) : State :=
       { s with engine := { e with groupStarted := true, order := some p } }
     let begun (q impression : Nat) : State := starts
       { phase := if far = 0 ∧ turn q = 0 then .settling else .moving
         petal := some q, impression := impression, carriage := carriage
         wheel := if turn q = 0 then none else some (s.now + 1500)
         platen := false, phaseEnd := if far = 0 ∧ turn q = 0 then some (s.now + 20) else none
         drivePulse := 0, brakePulse := 0, driveStart := s.now }
     (∀ kind code candidates class_, o.work = .strike kind code candidates class_ →
       let petals : List Nat := match kind, code with
         | .under, _ => (match activeProfile s.wheel with
           | some p => p.underscore.toList
           | none => [])
         | _, some b => glyphPetals s.wheel b
         | _, none => []
       let skipped : State := raise .wheel 3 [byte o.cell, code.getD 0xFF, byte kind.code]
         { s with
           strikeQueue := rest
           engine := { e with groupStarted := true }
           line := { s.line with cells := s.line.cells.map fun d =>
             if d.id = o.cell then
               (if kind = .under then { d with underlineDropped := true } else { d with unprintable := true })
             else d } }
       (∀ q, choosePetal (e.wheelPosition.getD 0) petals = some q →
         (kind = .accent ∨ kind = .under → startOrder s = begun q 1) ∧
         (∀ p x, kind = .main ∨ kind = .bold → activeProfile s.wheel = some p → p.petals[q]? = some x →
           startOrder s = begun q x.impression)) ∧
       (petals = [] →
         (o.last = false → startOrder s = startOrder skipped) ∧
         (o.last = true → startOrder s = finishStrikeGroup o.cell skipped))) ∧
     (∀ kind petal wheel impression, o.work = .lift kind petal wheel impression →
       (wheel = s.wheel.mounted → s.sensors.tape.debounced = .closed → startOrder s = begun petal impression) ∧
       (∀ body final after c, s.strikeQueue = body ++ final :: after → final.last = true →
         (∀ x ∈ body, x.last = false) → c ∈ s.line.cells → c.id = o.cell → (s.line.cells.map (·.id)).Nodup →
         let left : State :=
           { s with
             strikeQueue := after
             engine := { e with groupStarted := false, order := none }
             line := { s.line with cells := s.line.cells.map fun d =>
               if d.id = o.cell then { d with state := .struck } else d } }
         (wheel ≠ s.wheel.mounted → startOrder s = askSound .error (raise .lift 1
           [byte o.cell, byte wheel, byte s.wheel.mounted, byte c.strikes.length] left)) ∧
         (wheel = s.wheel.mounted → s.sensors.tape.debounced = .opened →
           startOrder s = askSound .error (raise .lift 2 [byte o.cell, byte c.strikes.length] left)))) ∧
     (∀ platen, o.work = .returnLine platen → startOrder s = starts
       { phase := .moving, petal := none, impression := 0, carriage := carriage, wheel := none, platen := true,
         phaseEnd := none, drivePulse := 0, brakePulse := 0, driveStart := s.now })) ∧
  (∀ (s : State) (c : Cell), c ∈ s.line.cells → (s.line.cells.map (·.id)).Nodup →
     let u := finishStrikeGroup c.id s
     let all (x : CellState) : List Cell :=
       s.line.cells.map fun d => if d.id = c.id then { d with state := x } else d
     let struck : State :=
       { s with engine := { s.engine with groupStarted := false }, line := { s.line with cells := all .struck } }
     let mounted := s.wheel.mounted
     let count := c.strikes.length
     ∃ t left, lineLeft s c left ∧ (actingWatch s.zone .note c.start c.stop = none → t = struck) ∧
       (∀ x, actingWatch s.zone .note c.start c.stop = some x → t = raise .zone 5
         ([byte x, byte (matched s left c.start c.stop)] ++ be16 c.start ++ be16 c.stop ++
           be16 s.composer.printPoint ++ [byte c.id]) struck) ∧
       (s.correction.deferred ≠ some c.id → u = t) ∧
       (s.correction.deferred = some c.id →
         let v : State := { t with correction := { t.correction with deferred := none } }
         let good := ∀ r ∈ c.strikes, r.wheel = mounted
         (c.strikes = [] → u.line.cells.map fixedPart =
             (s.line.cells.filter fun d => d.id != c.id).map fixedPart ∧
           u.strikeQueue = s.strikeQueue ∧ u.correction = v.correction ∧ u.engine = v.engine ∧
           u = removeCells false (fun d => d.id == c.id) v) ∧
         (∀ l r x, c.strikes = l ++ r :: x → r.wheel ≠ mounted → (∀ y ∈ x, y.wheel = mounted) →
           u = askSound .error (raise .lift 1 [byte c.id, byte r.wheel, byte mounted, byte count] v)) ∧
         (c.strikes ≠ [] → good → s.sensors.tape.debounced = .opened →
           u = askSound .error (raise .lift 2 [byte c.id, byte count] v)) ∧
         (c.strikes ≠ [] → good → s.sensors.tape.debounced = .closed → ∃ g : LiftGroup,
           g.cell = c.id ∧ g.orders.length = count ∧
           (∀ (i : Nat) (r : StrikeRecord), c.strikes.reverse[i]? = some r → g.orders[i]? = some
             { cell := c.id, position := r.position, last := decide (i + 1 = count),
               work := .lift r.kind r.petal r.wheel r.impression }) ∧
           (s.strikeQueue.length + count ≤ 32 → u =
             { v with strikeQueue := g.orders ++ s.strikeQueue, line := { v.line with cells := all .lifting } }) ∧
           (32 < s.strikeQueue.length + count → u =
             { v with correction := { v.correction with waiting := g :: s.correction.waiting } })))) ∧
  (∀ p q r : Nat, p < 96 → q < 96 → r < 96 →
     travel p q ≤ 48 ∧ (travel p q = 0 ↔ p = q) ∧
     (turnOf p q = .still → p = q) ∧
     (∀ n, turnOf p q = .forward n → 1 ≤ n ∧ n ≤ 48 ∧ n = travel p q ∧ (p + n) % 96 = q) ∧
     (∀ n, turnOf p q = .backward n → 1 ≤ n ∧ n ≤ 47 ∧ n = travel p q ∧ (q + n) % 96 = p) ∧
     choosePetal p [] = none ∧ choosePetal p [q] = some q ∧
     (∀ x, choosePetal p [q, r] = some x → (x = q ∨ x = r) ∧ travel p x ≤ travel p q ∧
       travel p x ≤ travel p r ∧ (travel p q = travel p r → x ≤ q ∧ x ≤ r)) ∧
     (∃ x, choosePetal p [q, r] = some x))

/-- The ends of the motions of an order in MOVING (R71, R74), and of SETTLING and DRIVE (R71, R84): the carriage
stands at the order's position, and when no motion is left, whichever ends last, a strike or a lift settles for
2 ms, and a RETURN completes: the LINE-END cell and every cell before it leave the list, the paper line's record
goes, and LINE (RETURN) is raised (R9, R74). The hammer is driven for the pulse computed at the end of SETTLING, then
braked by the latched speed. That the end of a carriage move sets the count to the order's position, whatever edges were
counted (log entry 7), and that the end of a motion or phase not under way changes nothing (log entry 3), are the
model's choices.
R42, R59, R83: what the motors and the hammer are given in each engine state, and in each phase of an order; the wheel
turns forward up to 48 petals, and backward beyond. That carriage
and wheel are held in DRIVE, in BRAKE and in RUNNING without an order is an inference (log entry 35), and so is the
SPELL of words that lose cells before LINE (log entry 36). -/
def Obligations.motions_settling_and_drive_end : Prop :=
  (∀ (s : State) (p : OrderProgress) (o : Order) (rest : List Order),
     s.engine.order = some p → p.phase = .moving → s.strikeQueue = o :: rest → s.engine.homing = none →
     let settling : OrderProgress := { p with
       carriage := none, wheel := none, phase := .settling, phaseEnd := some (s.now + 20) }
     let engine (x : Engine) (p : OrderProgress) : State := { s with engine := { x with order := some p } }
     let there : Engine := { s.engine with carriage := some (o.position : Int) }
     (p.carriage ≠ none → p.platen = false → p.petal ≠ none →
       (p.wheel = none → exec .carriageMoveEnd s = .next (textEvent (engine there settling))) ∧
       (p.wheel ≠ none →
         exec .carriageMoveEnd s = .next (textEvent (engine there { p with carriage := none })))) ∧
     (p.wheel ≠ none → p.platen = false → p.petal ≠ none →
       (p.carriage = none → exec .wheelTurnEnd s = .next (engine s.engine settling)) ∧
       (p.carriage ≠ none → exec .wheelTurnEnd s = .next (engine s.engine { p with wheel := none }))) ∧
     (p.petal = none → p.wheel = none → p.platen = true →
       (p.carriage ≠ none →
         exec .carriageMoveEnd s = .next (textEvent (engine there { p with carriage := none })) ∧
         exec .platenMotionEnd s = .next (textEvent (engine s.engine { p with platen := false }))) ∧
       (p.carriage = none → (∃ n, o.work = .returnLine n) →
         exec .platenMotionEnd s = .next (textEvent
           (completeReturn { s with strikeQueue := rest, engine := { s.engine with order := none } })))) ∧
     (p.petal = none → p.wheel = none → p.platen = false → p.carriage ≠ none → (∃ n, o.work = .returnLine n) →
       exec .carriageMoveEnd s = .next (textEvent
         (completeReturn { s with strikeQueue := rest, engine := { there with order := none } }))) ∧
     (p.carriage = none → exec .carriageMoveEnd s = .next s) ∧
     (p.wheel = none → exec .wheelTurnEnd s = .next s) ∧
     (p.platen = false → exec .platenMotionEnd s = .next s)) ∧
  (∀ (s : State) (p : OrderProgress) (o : Order) (rest : List Order) (n speed : Nat),
     s.engine.order = some p → p.phaseEnd = some n → s.strikeQueue = o :: rest →
     s.engine.latchedSpeed = some speed →
     let lift := match o.work with | .lift _ _ _ _ => true | _ => false
     let d := drivePulse p.impression lift s.composer.format.impression s.impression.band
     let b := brakePulse speed d
     let now := max s.now n
     let goes (p : OrderProgress) : State := { s with now := now, engine := { s.engine with order := some p } }
     (p.phase = .settling → exec .settlingEnd s = .next (goes { p with
       phase := .drive, drivePulse := d, brakePulse := b, driveStart := now, phaseEnd := some (now + d) })) ∧
     (p.phase = .drive → exec .driveEnd s = .next (goes { p with
       phase := .brake, phaseEnd := some (now + p.brakePulse) })) ∧
     (p.phase ≠ .settling → exec .settlingEnd s = .next s) ∧
     (p.phase ≠ .drive → exec .driveEnd s = .next s)) ∧
  (∀ (s : State) (before after : List Cell) (e : Cell), s.line.cells = before ++ e :: after → e.kind = .lineEnd →
     (∀ d ∈ before, d.kind ≠ .lineEnd) → (s.line.cells.map (·.id)).Nodup →
     ∃ u : State, completeReturn s = raise .line 0 [] { u with line := { u.line with paper := none } } ∧
       u = removeCells false (fun d => ((before ++ [e]).map (·.id)).contains d.id)
         { s with engine := { s.engine with groupStarted := false } } ∧
       u.line.cells.map fixedPart = after.map fixedPart ∧
       u.line.composing = s.line.composing ∧
       ((∃ d ∈ before ++ [e], s.line.releaseMark = some d.id) → u.line.releaseMark = none) ∧
       ((∀ d ∈ before ++ [e], s.line.releaseMark ≠ some d.id) → u.line.releaseMark = s.line.releaseMark) ∧
       u.composer = { s.composer with
         openRun := s.composer.openRun.filter fun i => !((before ++ [e]).map (·.id)).contains i } ∧
       u.engine = { s.engine with groupStarted := false } ∧ u.strikeQueue = s.strikeQueue ∧
       u.correction = s.correction ∧ u.zone = s.zone ∧ u.wheel = s.wheel ∧ u.chip = s.chip) ∧
  (∀ s : State,
     let e := s.engine
     let gives (m : Motors) (platen : Option Int) (h : Hammer) : Prop :=
       mechanismOutput s = { motors := m, platen := platen, hammer := h }
     (e.state = .unhomed ∨ e.state = .paused .cover ∨ e.state.isFaulted = true → gives .off none .inhibited) ∧
     (∀ x, e.state = .homing → e.homing = some x → gives (.homing x) e.feed .atRest) ∧
     (e.state ∈ [.identifying, .ready, .paused .paper, .paused .supply] → gives .held e.feed .atRest) ∧
     (e.state = .running → e.order = none → gives .held e.feed .atRest) ∧
     (∀ p o rest, e.state = .running → e.order = some p → s.strikeQueue = o :: rest →
       let motions := Motors.moving (if p.carriage = none then none else some o.position) (orderTurn p e)
       (∀ units, p.phase = .moving → p.platen = true → o.work = .returnLine units →
         gives motions (some (units : Int)) .atRest) ∧
       (p.phase = .moving → p.platen = false ∨ (∀ units, o.work ≠ .returnLine units) →
         gives motions e.feed .atRest) ∧
       (p.wheel = none ∨ p.petal = none → orderTurn p e = .still) ∧
       (∀ q w d, p.wheel ≠ none → p.petal = some q → e.wheelPosition = some w → q < 96 → w < 96 → d < 96 →
         (w + d) % 96 = q →
         orderTurn p e = if d = 0 then .still else if d ≤ 48 then .forward d else .backward (96 - d)) ∧
       (p.phase = .settling → gives .held e.feed .atRest) ∧
       (p.phase = .drive → gives .held e.feed .driven) ∧
       (p.phase = .brake → gives .held e.feed .braked)))

/-- R85, R86: the pulses of a firing by their stages; every hammer strike's drive is 2.0 to 10.0 ms, and with its
brake at most 12.0 ms. -/
def Obligations.hammer_pulses_stay_within_their_windows : Prop :=
  ∀ (k : Nat) (lift : Bool) (setting : Int) (b : Band) (speed : Nat),
    let base : Int := match k with | 1 => 28 | 2 => 38 | 3 => 48 | 4 => 58 | _ => 70
    let factor : Int := match b with | .critical | .low => 9 | .nominal => 8 | .high => 7
    let scaled := ((base + 6 * setting + if lift then 10 else 0) * factor + 4) / 8
    let d := drivePulse k lift setting b
    let whole := match speed with | 1 => 40 | 2 => 36 | 3 => 32 | _ => 30
    ((d : Int) = max 20 (min 100 scaled)) ∧ 20 ≤ d ∧ d ≤ 100 ∧
      brakePulse speed d = min whole (120 - d) ∧ 20 ≤ brakePulse speed d ∧ d + brakePulse speed d ≤ 120

/-- R71, R92, R103: the end of BRAKE: a STRIKE order appends its record, a LIFT order removes the last one; the
heat, the wheel position and the queue follow; within a group the next order starts, and after the last the cell
is STRUCK, or lifted: it leaves the list with LIFT (DONE). Where the struck cell has a deferred lift, the lift is built
in the same event (R101); `finishStrikeGroup`, the end of a cell's strikes, is stated whole in
`Obligations.orders_start_or_are_skipped_by_the_wheel`. R70, R71: what follows in the same event: in RUNNING, with the
group started and no order in progress, its next order starts without a new judgement; otherwise nothing. The removal of
the lifted cell is `Obligations.words_that_lose_cells_go_or_reopen`'s; that its SPELL events come before LIFT is an
inference (log entry 36). -/
def Obligations.brake_end_completes_the_order : Prop :=
  (∀ (s t : State) (p : OrderProgress) (o : Order) (rest : List Order) (n q : Nat),
     s.engine.order = some p → p.phase = .brake → p.phaseEnd = some n → p.petal = some q →
     s.strikeQueue = o :: rest →
     let change (f : Cell → Cell) : State :=
       { s with
         now := max s.now n
         strikeQueue := rest
         engine := { s.engine with order := none, wheelPosition := some q }
         impression := { s.impression with heat := s.impression.heat + p.drivePulse }
         line := { s.line with cells := s.line.cells.map fun c => if c.id = o.cell then f c else c } }
     (∀ kind code candidates class_, o.work = .strike kind code candidates class_ →
       t = change (fun c => { c with strikes := c.strikes ++
         [{ position := o.position, petal := q, wheel := s.wheel.mounted, kind := kind,
            impression := p.impression }] }) →
       (o.last = false → exec .brakeEnd s = .next (textEvent (continueGroup t))) ∧
       (o.last = true → exec .brakeEnd s = .next (textEvent (continueGroup (finishStrikeGroup o.cell t)))) ∧
       (o.last = true → s.correction.deferred ≠ some o.cell → (s.line.cells.map (·.id)).Nodup →
         ∀ c, c ∈ t.line.cells → c.id = o.cell →
         ∃ v left, exec .brakeEnd s = .next (textEvent (continueGroup v)) ∧ lineLeft t c left ∧
           let struck : State :=
             { t with
               engine := { t.engine with groupStarted := false }
               line := { t.line with cells := t.line.cells.map fun c =>
                 if c.id = o.cell then { c with state := .struck } else c } }
           (actingWatch s.zone .note c.start c.stop = none → v = struck) ∧
           (∀ x, actingWatch s.zone .note c.start c.stop = some x → v = raise .zone 5
             ([byte x, byte (matched s left c.start c.stop)] ++ be16 c.start ++ be16 c.stop ++
               be16 s.composer.printPoint ++ [byte c.id]) struck))) ∧
     (∀ kind petal wheel class_, o.work = .lift kind petal wheel class_ →
       t = change (fun c => { c with strikes := c.strikes.dropLast }) →
       (o.last = false → exec .brakeEnd s = .next (textEvent (continueGroup t))) ∧
       (o.last = true → (s.line.cells.map (·.id)).Nodup → ∀ c, c ∈ s.line.cells → c.id = o.cell →
         ∃ v u : State, exec .brakeEnd s = .next (textEvent (continueGroup v)) ∧
           v = raise .lift 0 [byte o.cell, c.glyph.getD 0xFF] u ∧
           u = removeCells false (fun d => d.id == o.cell)
             { t with engine := { t.engine with groupStarted := false } } ∧
           u.line.cells.map fixedPart = (s.line.cells.filter fun d => d.id != o.cell).map fixedPart ∧
           u.strikeQueue = rest ∧ u.engine = { t.engine with groupStarted := false } ∧
           u.impression = t.impression ∧ u.composer.printPoint = s.composer.printPoint))) ∧
  (∀ s : State,
     let goesOn : Prop := s.engine.state = .running ∧ s.engine.groupStarted = true ∧ s.engine.order = none
     (goesOn → continueGroup s = startOrder s) ∧ (¬goesOn → continueGroup s = s))

/-! ### Faults, the encoder, homing (R43, R46, R61 to R63, R72, R75, R81) -/

/-- R72, R75: a limit that expires is a fault: the engine FAULTED with its reason and detail, its work ended, the
strike queue kept; a fault found while FAULTED is ignored. That the target in the detail is the carriage move's (the
order's position while that move is under way, 0 in the homing return, none otherwise) is an inference (log entry 19); that CARRIAGE_SEARCH_LIMIT and
WHEEL_PHASE_LIMIT outside their phases change nothing is the model's choice (log entry 3). -/
def Obligations.limits_are_faults_that_keep_the_queue : Prop :=
  ∀ s : State,
    let e := s.engine
    let cut := match e.order with
      | some p => match p.phase with
        | .drive => fun n => min p.drivePulse (n - p.driveStart)
        | .brake => fun _ => p.drivePulse
        | _ => fun _ => 0
      | none => fun _ => 0
    let faulted (r : FaultReason) (code : Byte) (now : Nat) : State :=
      let detail : FaultDetail :=
        { cell := if e.order = none then none else s.strikeQueue.head?.map (·.cell), carriage := e.carriage,
          target := if e.homing = some .carriageReturn then some 0 else match e.order with
            | some p => if p.carriage = none then none else s.strikeQueue.head?.map (·.position)
            | none => none }
      raise .engine 6 ([code] ++ detail.bytes)
        { s with
          now := now
          engine := { e with
            state := .faulted r, homing := none, homingLimit := none, order := none, groupWait := none,
            feed := none, faultDetail := some detail }
          impression := { s.impression with heat := s.impression.heat + cut now } }
    let takes (c : Instr) (r : FaultReason) (code : Byte) (limit : Nat) : Prop :=
      (e.state.isFaulted = false →
        exec c s = .next (chooseFrame (render (faulted r code (max s.now limit))))) ∧
      (e.state.isFaulted = true → exec c s = .next (chooseFrame (render { s with now := max s.now limit })))
    (∀ p t, e.order = some p → p.carriage = some t → e.homing ≠ some .carriageReturn →
      takes .carriageMoveLimit .jamCarriage 4 t) ∧
    (∀ t, e.homing = some .carriageReturn → e.homingLimit = some t →
      takes .carriageMoveLimit .jamCarriage 4 t) ∧
    (∀ p t, e.order = some p → p.wheel = some t → takes .wheelTurnLimit .jamWheel 5 t) ∧
    (∀ t, e.homing = some .carriageSearch → e.homingLimit = some t →
      takes .carriageSearchLimit .jamCarriage 4 t) ∧
    (∀ t, e.homing = some .wheelSearch ∨ e.homing = some .wheelRead → e.homingLimit = some t →
      takes .wheelPhaseLimit .jamWheel 5 t) ∧
    (e.homing ≠ some .carriageSearch → exec .carriageSearchLimit s = .next s) ∧
    (e.homing ≠ some .wheelSearch → e.homing ≠ some .wheelRead → exec .wheelPhaseLimit s = .next s)

/-- R61, R62: an edge of one channel counts by one, up where A leads and down where B leads, into the count or,
while that is not known, the homing travel; past −24 or 1,824, and a homing travel past 1,900, is a fault; both
channels at once leave the count and are a fault in every state but FAULTED and UNHOMED.
R62, R63, R81: the phases of a homing by their events, and the end of a feed motion. The phase order that counts up,
that an edge changing neither channel is none, and that HOME-NOT-FOUND is judged in CARRIAGE-SEARCH alone are
inferences (log entry 21). That the homing return's end sets the count to 0 (log entry 7), and that INDEX_PULSE,
HOME_FLAG_FOUND and FEED_MOTION_END with nothing to act on change nothing (log entry 3), are the model's choices. -/
def Obligations.encoder_and_homing_events : Prop :=
  (∀ (a b : Bool) (s : State),
     let e := s.engine
     let seen : Engine := { e with channelA := a, channelB := b }
     let after (x : Engine) : State := { s with engine := x }
     let single := (a = e.channelA ∧ b ≠ e.channelB) ∨ (a ≠ e.channelA ∧ b = e.channelB)
     let up := (a ≠ e.channelA ∧ a ≠ b) ∨ (b ≠ e.channelB ∧ a = b)
     (a ≠ e.channelA → b ≠ e.channelB →
       (e.state = .unhomed ∨ e.state.isFaulted = true → exec (.encoderEdge a b) s = .next (after seen)) ∧
       (e.state ≠ .unhomed → e.state.isFaulted = false → exec (.encoderEdge a b) s =
         .next (chooseFrame (render (takeFault .jamCarriage (after seen)))))) ∧
     (a = e.channelA → b = e.channelB → exec (.encoderEdge a b) s = .next s) ∧
     (∀ n m : Int, single → e.carriage = some n → m = (if up then n + 1 else n - 1) →
       (-24 ≤ m → m ≤ 1824 → exec (.encoderEdge a b) s = .next (after { seen with carriage := some m })) ∧
       (m < -24 ∨ 1824 < m → exec (.encoderEdge a b) s =
         .next (chooseFrame (render (takeFault .overtravel (after { seen with carriage := some m })))))) ∧
     (single → e.carriage = none →
       let counted := after { seen with homingTravel := e.homingTravel + 1 }
       (e.homing ≠ some .carriageSearch ∨ e.homingTravel < 1900 →
         exec (.encoderEdge a b) s = .next counted) ∧
       (e.homing = some .carriageSearch → 1900 ≤ e.homingTravel → exec (.encoderEdge a b) s =
         .next (chooseFrame (render (takeFault .homeNotFound counted)))))) ∧
  (∀ s : State,
     let e := s.engine
     let after (x : Engine) : State := { s with engine := x }
     (e.homing = some .carriageSearch → exec .indexPulse s = .next (after { e with
       carriage := some 0, homing := some .carriageReturn, homingLimit := some (s.now + 3000) })) ∧
     (e.homing ≠ some .carriageSearch → exec .indexPulse s = .next s) ∧
     (e.homing = some .carriageReturn → exec .carriageMoveEnd s = .next (after { e with
       carriage := some 0, homing := some .wheelSearch, homingLimit := some (s.now + 1500) })) ∧
     (e.homing = some .wheelSearch → exec .homeFlagFound s = .next (after { e with
       wheelPosition := some 0, homing := some .wheelRead, homingLimit := some (s.now + 1500) })) ∧
     (e.homing ≠ some .wheelSearch → exec .homeFlagFound s = .next s) ∧
     (∀ u, e.feed = some u →
       exec .feedMotionEnd s = .next (textEvent (after { e with feed := none }))) ∧
     (e.feed = none → exec .feedMotionEnd s = .next s))

/-- R43, R46, R48, R63: the wheel code read ends a homing: code 0 is NO-WHEEL; the code of the active profile keeps
it; a code already under resolution goes on with it; any other abandons a fetch in progress, and then a code in the
cache makes its profile active with WHEEL (ACTIVE), and any other begins a fetch, which searches the directory or
waits for it, or waits for records where the memory is absent. Code 0 raises two ENGINE events, for IDENTIFYING and
for FAULTED (R60). That WHEEL is raised before the ENGINE of the same event is the model's choice (log entry 22), and
so is that a code read outside WHEEL-READ changes nothing (log entry 3). -/
def Obligations.wheel_code_read_resolves_the_wheel : Prop :=
  ∀ (code : BitVec 6) (s : State),
    let c := code.toNat
    let e := s.engine
    let w := s.wheel
    let there : Engine := { e with
      state := .identifying, homing := none, homingLimit := none, wheelPosition := some 0 }
    let after (w : WheelUnit) : State := { s with engine := there, wheel := { w with mounted := c } }
    let ends (v : State) : Prop := exec (.wheelCodeRead code) s = .next (textEvent v)
    (e.homing ≠ some .wheelRead → exec (.wheelCodeRead code) s = .next s) ∧
    (∀ x, e.homing = some .wheelRead → fetchAbandoned s x →
      let y := x.wheel
      let from_ (w : WheelUnit) : State := { x with engine := there, wheel := { w with mounted := c } }
      let unsettled := w.mounted = c ∧ w.resolution ≠ .settled
      let other := c ≠ 0 ∧ (∀ q, activeProfile w = some q → q.code ≠ c)
      let byCode (slot : Nat) (p : Profile) : Prop := y.cache[slot]? = some (some p) ∧ p.code = c
      (c = 0 → ends (takeFault .noWheel (engineReport (from_
        { y with active := none, glyphMap := [], resolution := .settled })))) ∧
      (∀ p, c ≠ 0 → activeProfile w = some p → p.code = c → ends (after w)) ∧
      (other → unsettled → ends (engineReport (after w))) ∧
      (∀ slot p, other → ¬unsettled → byCode slot p → slot = 0 ∨ slot = 1 ∧ ¬(∃ q, byCode 0 q) →
        slot < y.cache.length →
        ends (raise .wheel 0 [byte p.pitch.code, if p.pitch = s.composer.format.pitch then 0 else 1, 0] (from_
          { y with
            active := some slot, recency := slot :: y.recency.filter (· != slot), resolution := .settled,
            glyphMap := buildMap p.petals }))) ∧
      (other → ¬unsettled → (∀ slot p, slot < 2 → ¬byCode slot p) →
        (s.memory.state = .absent → ends (engineReport (raise .wheel 1 [byte c] (from_
          { y with active := none, glyphMap := [], resolution := .unresolved })))) ∧
        (s.memory.state ≠ .absent →
          let fetching := from_
            { y with
              active := none, glyphMap := [], resolution := .fetching
              fetch := some { code := c, progress := .waitingDirectory } }
          (w.directoryState = .loading → ends (engineReport fetching)) ∧
          (w.directoryState ≠ .loading → ∃ u, fetchSearches c fetching u ∧ ends (engineReport u)))))

/-! ### The rail and the heat (R88 to R94) -/

/-- R88, R89, R91: a measurement; the first sets the plain band, and later ones change the band when the reading
lies more than 0.4 V beyond its boundary; at a change SUPPLY is raised, its detail the band before, the reading in
1 byte (for a reading above 25.5 V, whatever that byte holds: log entries 4 and 9) and the speed, and a supply
pause ends.
R93, R94: a decay step takes a sixteenth; one that leaves 1,800 or less clears the cooling latch, and a group
start waiting in COOLING is then judged again. That SUPPLY is raised before ENGINE is an inference (log entry 36). -/
def Obligations.supply_and_heat_events : Prop :=
  (∀ (reading : Nat) (s : State),
     let x := s.impression
     let r := min reading 400
     let plain : Band := if r < 190 then .critical else if r < 220 then .low else if r ≤ 260 then .nominal
       else .high
     let leaves := match x.band with
       | .critical => 194 < r
       | .low => r < 186 ∨ 224 < r
       | .nominal => r < 216 ∨ 264 < r
       | .high => r < 256
     let measured (b : Band) : State :=
       { s with
         now := max s.now x.measureDue
         impression := { x with
           band := b, firstPending := false, lastReading := some r, measureDue := x.measureDue + 100 } }
     (x.firstPending = false → ¬leaves → exec (.supplyMeasurement reading) s = .next (measured x.band)) ∧
     ((x.firstPending = true ∨ leaves) → plain = x.band →
       exec (.supplyMeasurement reading) s = .next (measured x.band)) ∧
     ((x.firstPending = true ∨ leaves) → plain ≠ x.band →
       let speed := effectiveSpeed s.composer.format.speed plain
       ∃ told detail, told = raise .supply plain.code [byte x.band.code, detail, byte speed] (measured plain) ∧
       (r ≤ 255 → detail.toNat = r) ∧
       let judged : State := { told with engine := { s.engine with
         groupWait := if speed = s.effectiveSpeed then s.engine.groupWait else none } }
       (¬(x.band = .critical ∧ s.engine.state = .paused .supply) →
         exec (.supplyMeasurement reading) s = .next (textEvent judged)) ∧
       (x.band = .critical → s.engine.state = .paused .supply →
         exec (.supplyMeasurement reading) s = .next (textEvent
           (raise .engine (if s.strikeQueue = [] then 3 else 4) [0]
             { judged with engine := { s.engine with
               state := if s.strikeQueue = [] then .ready else .running, groupWait := none } })))) ∧
     (∀ speed, effectiveSpeed speed .nominal = speed ∧ effectiveSpeed speed .high = speed ∧
       effectiveSpeed speed .low = min speed 2 ∧ effectiveSpeed speed .critical = min speed 2)) ∧
  (∀ s : State,
     let x := s.impression
     let heat := x.heat - x.heat / 16
     let stepped (latch : Bool) : State :=
       { s with
         now := max s.now x.decayDue
         impression := { x with heat := heat, decayDue := x.decayDue + 1000, coolingLatch := latch } }
     (x.coolingLatch = false → exec .heatDecay s = .next (stepped false)) ∧
     (x.coolingLatch = true → 1800 < heat → exec .heatDecay s = .next (stepped true)) ∧
     (x.coolingLatch = true → heat ≤ 1800 → s.engine.groupWait ≠ some .cooling →
       exec .heatDecay s = .next (stepped false)) ∧
     (x.coolingLatch = true → heat ≤ 1800 → s.engine.groupWait = some .cooling →
       exec .heatDecay s = .next (textEvent
         { stepped false with engine := { s.engine with groupWait := none } })))

/-! ### Invariants -/

/-- R1, R177, R179: every step keeps the bounds of the key queue and the reply queue, and the report queue one entry
of each kind at most. -/
def Obligations.every_step_keeps_the_queues_bounded : Prop :=
  ∀ s t : State, queuesBounded s → step s = .next t → queuesBounded t

/-- R10, R65, R130: every step keeps the bounds of the cell list, the strike queue and the check queue. -/
def Obligations.every_step_keeps_cells_orders_and_checks_bounded : Prop :=
  ∀ s t : State, listsBounded s → step s = .next t → listsBounded t

/-- The memory's bytes keep their canonical form. -/
def Obligations.every_step_keeps_the_memory_canonical : Prop :=
  ∀ s t : State, memoryCanonical s → step s = .next t → memoryCanonical t

/-- R118, R119, R143, R146, R165, R172, R173: the tab stop set and the form watches stay within their values; so do
the sounder's settings, and at most five one-shots stand, none with the tone; the cursor stays in the text columns
of a display of 32 cells. -/
def Obligations.every_step_keeps_zone_sounder_and_display : Prop :=
  (∀ s t : State, zoneAllowed s.zone → step s = .next t → zoneAllowed t.zone) ∧
  (∀ s t : State, sounderAllowed s.sounder → step s = .next t → sounderAllowed t.sounder) ∧
  (∀ s t : State, displayAllowed s.display → step s = .next t → displayAllowed t.display)
end

