-- ==== Sys2Proof/Laws/State.lean ====
section
/-!
SUPPORT. One lemma for each field of the state and each named update of it.
-/

namespace Sys2Proof.Machine

variable (s : State)

@[simp] theorem setEngine_link (x : Engine) : (setEngine x s).link = s.link := rfl
@[simp] theorem setEngine_composer (x : Engine) : (setEngine x s).composer = s.composer := rfl
@[simp] theorem setEngine_line (x : Engine) : (setEngine x s).line = s.line := rfl
@[simp] theorem setEngine_wheel (x : Engine) : (setEngine x s).wheel = s.wheel := rfl
@[simp] theorem setEngine_strikeQueue (x : Engine) : (setEngine x s).strikeQueue = s.strikeQueue := rfl
@[simp] theorem setEngine_engine (x : Engine) : (setEngine x s).engine = x := rfl
@[simp] theorem setEngine_correction (x : Engine) : (setEngine x s).correction = s.correction := rfl
@[simp] theorem setEngine_impression (x : Engine) : (setEngine x s).impression = s.impression := rfl
@[simp] theorem setEngine_zone (x : Engine) : (setEngine x s).zone = s.zone := rfl
@[simp] theorem setEngine_spelling (x : Engine) : (setEngine x s).spelling = s.spelling := rfl
@[simp] theorem setEngine_display (x : Engine) : (setEngine x s).display = s.display := rfl
@[simp] theorem setEngine_memory (x : Engine) : (setEngine x s).memory = s.memory := rfl
@[simp] theorem setEngine_chip (x : Engine) : (setEngine x s).chip = s.chip := rfl
@[simp] theorem setEngine_sensors (x : Engine) : (setEngine x s).sensors = s.sensors := rfl
@[simp] theorem setEngine_sounder (x : Engine) : (setEngine x s).sounder = s.sounder := rfl
@[simp] theorem setEngine_pins (x : Engine) : (setEngine x s).pins = s.pins := rfl
@[simp] theorem setEngine_now (x : Engine) : (setEngine x s).now = s.now := rfl
@[simp] theorem setEngine_fresh (x : Engine) : (setEngine x s).fresh = s.fresh := rfl
@[simp] theorem setEngine_pending (x : Engine) : (setEngine x s).pending = s.pending := rfl

@[simp] theorem setLink_link (x : Link) : (setLink x s).link = x := rfl
@[simp] theorem setLink_composer (x : Link) : (setLink x s).composer = s.composer := rfl
@[simp] theorem setLink_line (x : Link) : (setLink x s).line = s.line := rfl
@[simp] theorem setLink_wheel (x : Link) : (setLink x s).wheel = s.wheel := rfl
@[simp] theorem setLink_strikeQueue (x : Link) : (setLink x s).strikeQueue = s.strikeQueue := rfl
@[simp] theorem setLink_engine (x : Link) : (setLink x s).engine = s.engine := rfl
@[simp] theorem setLink_correction (x : Link) : (setLink x s).correction = s.correction := rfl
@[simp] theorem setLink_impression (x : Link) : (setLink x s).impression = s.impression := rfl
@[simp] theorem setLink_zone (x : Link) : (setLink x s).zone = s.zone := rfl
@[simp] theorem setLink_spelling (x : Link) : (setLink x s).spelling = s.spelling := rfl
@[simp] theorem setLink_display (x : Link) : (setLink x s).display = s.display := rfl
@[simp] theorem setLink_memory (x : Link) : (setLink x s).memory = s.memory := rfl
@[simp] theorem setLink_chip (x : Link) : (setLink x s).chip = s.chip := rfl
@[simp] theorem setLink_sensors (x : Link) : (setLink x s).sensors = s.sensors := rfl
@[simp] theorem setLink_sounder (x : Link) : (setLink x s).sounder = s.sounder := rfl
@[simp] theorem setLink_pins (x : Link) : (setLink x s).pins = s.pins := rfl
@[simp] theorem setLink_now (x : Link) : (setLink x s).now = s.now := rfl
@[simp] theorem setLink_fresh (x : Link) : (setLink x s).fresh = s.fresh := rfl
@[simp] theorem setLink_pending (x : Link) : (setLink x s).pending = s.pending := rfl

@[simp] theorem setWheel_link (x : WheelUnit) : (setWheel x s).link = s.link := rfl
@[simp] theorem setWheel_composer (x : WheelUnit) : (setWheel x s).composer = s.composer := rfl
@[simp] theorem setWheel_line (x : WheelUnit) : (setWheel x s).line = s.line := rfl
@[simp] theorem setWheel_wheel (x : WheelUnit) : (setWheel x s).wheel = x := rfl
@[simp] theorem setWheel_strikeQueue (x : WheelUnit) : (setWheel x s).strikeQueue = s.strikeQueue := rfl
@[simp] theorem setWheel_engine (x : WheelUnit) : (setWheel x s).engine = s.engine := rfl
@[simp] theorem setWheel_correction (x : WheelUnit) : (setWheel x s).correction = s.correction := rfl
@[simp] theorem setWheel_impression (x : WheelUnit) : (setWheel x s).impression = s.impression := rfl
@[simp] theorem setWheel_zone (x : WheelUnit) : (setWheel x s).zone = s.zone := rfl
@[simp] theorem setWheel_spelling (x : WheelUnit) : (setWheel x s).spelling = s.spelling := rfl
@[simp] theorem setWheel_display (x : WheelUnit) : (setWheel x s).display = s.display := rfl
@[simp] theorem setWheel_memory (x : WheelUnit) : (setWheel x s).memory = s.memory := rfl
@[simp] theorem setWheel_chip (x : WheelUnit) : (setWheel x s).chip = s.chip := rfl
@[simp] theorem setWheel_sensors (x : WheelUnit) : (setWheel x s).sensors = s.sensors := rfl
@[simp] theorem setWheel_sounder (x : WheelUnit) : (setWheel x s).sounder = s.sounder := rfl
@[simp] theorem setWheel_pins (x : WheelUnit) : (setWheel x s).pins = s.pins := rfl
@[simp] theorem setWheel_now (x : WheelUnit) : (setWheel x s).now = s.now := rfl
@[simp] theorem setWheel_fresh (x : WheelUnit) : (setWheel x s).fresh = s.fresh := rfl
@[simp] theorem setWheel_pending (x : WheelUnit) : (setWheel x s).pending = s.pending := rfl

@[simp] theorem setSpelling_link (x : SpellingUnit) : (setSpelling x s).link = s.link := rfl
@[simp] theorem setSpelling_composer (x : SpellingUnit) : (setSpelling x s).composer = s.composer := rfl
@[simp] theorem setSpelling_line (x : SpellingUnit) : (setSpelling x s).line = s.line := rfl
@[simp] theorem setSpelling_wheel (x : SpellingUnit) : (setSpelling x s).wheel = s.wheel := rfl
@[simp] theorem setSpelling_strikeQueue (x : SpellingUnit) : (setSpelling x s).strikeQueue = s.strikeQueue := rfl
@[simp] theorem setSpelling_engine (x : SpellingUnit) : (setSpelling x s).engine = s.engine := rfl
@[simp] theorem setSpelling_correction (x : SpellingUnit) : (setSpelling x s).correction = s.correction := rfl
@[simp] theorem setSpelling_impression (x : SpellingUnit) : (setSpelling x s).impression = s.impression := rfl
@[simp] theorem setSpelling_zone (x : SpellingUnit) : (setSpelling x s).zone = s.zone := rfl
@[simp] theorem setSpelling_spelling (x : SpellingUnit) : (setSpelling x s).spelling = x := rfl
@[simp] theorem setSpelling_display (x : SpellingUnit) : (setSpelling x s).display = s.display := rfl
@[simp] theorem setSpelling_memory (x : SpellingUnit) : (setSpelling x s).memory = s.memory := rfl
@[simp] theorem setSpelling_chip (x : SpellingUnit) : (setSpelling x s).chip = s.chip := rfl
@[simp] theorem setSpelling_sensors (x : SpellingUnit) : (setSpelling x s).sensors = s.sensors := rfl
@[simp] theorem setSpelling_sounder (x : SpellingUnit) : (setSpelling x s).sounder = s.sounder := rfl
@[simp] theorem setSpelling_pins (x : SpellingUnit) : (setSpelling x s).pins = s.pins := rfl
@[simp] theorem setSpelling_now (x : SpellingUnit) : (setSpelling x s).now = s.now := rfl
@[simp] theorem setSpelling_fresh (x : SpellingUnit) : (setSpelling x s).fresh = s.fresh := rfl
@[simp] theorem setSpelling_pending (x : SpellingUnit) : (setSpelling x s).pending = s.pending := rfl

@[simp] theorem setMemory_link (x : MemoryController) : (setMemory x s).link = s.link := rfl
@[simp] theorem setMemory_composer (x : MemoryController) : (setMemory x s).composer = s.composer := rfl
@[simp] theorem setMemory_line (x : MemoryController) : (setMemory x s).line = s.line := rfl
@[simp] theorem setMemory_wheel (x : MemoryController) : (setMemory x s).wheel = s.wheel := rfl
@[simp] theorem setMemory_strikeQueue (x : MemoryController) : (setMemory x s).strikeQueue = s.strikeQueue := rfl
@[simp] theorem setMemory_engine (x : MemoryController) : (setMemory x s).engine = s.engine := rfl
@[simp] theorem setMemory_correction (x : MemoryController) : (setMemory x s).correction = s.correction := rfl
@[simp] theorem setMemory_impression (x : MemoryController) : (setMemory x s).impression = s.impression := rfl
@[simp] theorem setMemory_zone (x : MemoryController) : (setMemory x s).zone = s.zone := rfl
@[simp] theorem setMemory_spelling (x : MemoryController) : (setMemory x s).spelling = s.spelling := rfl
@[simp] theorem setMemory_display (x : MemoryController) : (setMemory x s).display = s.display := rfl
@[simp] theorem setMemory_memory (x : MemoryController) : (setMemory x s).memory = x := rfl
@[simp] theorem setMemory_chip (x : MemoryController) : (setMemory x s).chip = s.chip := rfl
@[simp] theorem setMemory_sensors (x : MemoryController) : (setMemory x s).sensors = s.sensors := rfl
@[simp] theorem setMemory_sounder (x : MemoryController) : (setMemory x s).sounder = s.sounder := rfl
@[simp] theorem setMemory_pins (x : MemoryController) : (setMemory x s).pins = s.pins := rfl
@[simp] theorem setMemory_now (x : MemoryController) : (setMemory x s).now = s.now := rfl
@[simp] theorem setMemory_fresh (x : MemoryController) : (setMemory x s).fresh = s.fresh := rfl
@[simp] theorem setMemory_pending (x : MemoryController) : (setMemory x s).pending = s.pending := rfl

@[simp] theorem setWaits_link (x : Waits) : (setWaits x s).link = s.link := rfl
@[simp] theorem setWaits_composer (x : Waits) : (setWaits x s).composer = { s.composer with waits := x } := rfl
@[simp] theorem setWaits_line (x : Waits) : (setWaits x s).line = s.line := rfl
@[simp] theorem setWaits_wheel (x : Waits) : (setWaits x s).wheel = s.wheel := rfl
@[simp] theorem setWaits_strikeQueue (x : Waits) : (setWaits x s).strikeQueue = s.strikeQueue := rfl
@[simp] theorem setWaits_engine (x : Waits) : (setWaits x s).engine = s.engine := rfl
@[simp] theorem setWaits_correction (x : Waits) : (setWaits x s).correction = s.correction := rfl
@[simp] theorem setWaits_impression (x : Waits) : (setWaits x s).impression = s.impression := rfl
@[simp] theorem setWaits_zone (x : Waits) : (setWaits x s).zone = s.zone := rfl
@[simp] theorem setWaits_spelling (x : Waits) : (setWaits x s).spelling = s.spelling := rfl
@[simp] theorem setWaits_display (x : Waits) : (setWaits x s).display = s.display := rfl
@[simp] theorem setWaits_memory (x : Waits) : (setWaits x s).memory = s.memory := rfl
@[simp] theorem setWaits_chip (x : Waits) : (setWaits x s).chip = s.chip := rfl
@[simp] theorem setWaits_sensors (x : Waits) : (setWaits x s).sensors = s.sensors := rfl
@[simp] theorem setWaits_sounder (x : Waits) : (setWaits x s).sounder = s.sounder := rfl
@[simp] theorem setWaits_pins (x : Waits) : (setWaits x s).pins = s.pins := rfl
@[simp] theorem setWaits_now (x : Waits) : (setWaits x s).now = s.now := rfl
@[simp] theorem setWaits_fresh (x : Waits) : (setWaits x s).fresh = s.fresh := rfl
@[simp] theorem setWaits_pending (x : Waits) : (setWaits x s).pending = s.pending := rfl

@[simp] theorem setPrintPoint_link (x : Nat) : (setPrintPoint x s).link = s.link := rfl
@[simp] theorem setPrintPoint_composer (x : Nat) : (setPrintPoint x s).composer = { s.composer with printPoint := x } := rfl
@[simp] theorem setPrintPoint_line (x : Nat) : (setPrintPoint x s).line = s.line := rfl
@[simp] theorem setPrintPoint_wheel (x : Nat) : (setPrintPoint x s).wheel = s.wheel := rfl
@[simp] theorem setPrintPoint_strikeQueue (x : Nat) : (setPrintPoint x s).strikeQueue = s.strikeQueue := rfl
@[simp] theorem setPrintPoint_engine (x : Nat) : (setPrintPoint x s).engine = s.engine := rfl
@[simp] theorem setPrintPoint_correction (x : Nat) : (setPrintPoint x s).correction = s.correction := rfl
@[simp] theorem setPrintPoint_impression (x : Nat) : (setPrintPoint x s).impression = s.impression := rfl
@[simp] theorem setPrintPoint_zone (x : Nat) : (setPrintPoint x s).zone = s.zone := rfl
@[simp] theorem setPrintPoint_spelling (x : Nat) : (setPrintPoint x s).spelling = s.spelling := rfl
@[simp] theorem setPrintPoint_display (x : Nat) : (setPrintPoint x s).display = s.display := rfl
@[simp] theorem setPrintPoint_memory (x : Nat) : (setPrintPoint x s).memory = s.memory := rfl
@[simp] theorem setPrintPoint_chip (x : Nat) : (setPrintPoint x s).chip = s.chip := rfl
@[simp] theorem setPrintPoint_sensors (x : Nat) : (setPrintPoint x s).sensors = s.sensors := rfl
@[simp] theorem setPrintPoint_sounder (x : Nat) : (setPrintPoint x s).sounder = s.sounder := rfl
@[simp] theorem setPrintPoint_pins (x : Nat) : (setPrintPoint x s).pins = s.pins := rfl
@[simp] theorem setPrintPoint_now (x : Nat) : (setPrintPoint x s).now = s.now := rfl
@[simp] theorem setPrintPoint_fresh (x : Nat) : (setPrintPoint x s).fresh = s.fresh := rfl
@[simp] theorem setPrintPoint_pending (x : Nat) : (setPrintPoint x s).pending = s.pending := rfl

@[simp] theorem setInput_link (w : Sensor) (x : Input) : (setInput w x s).link = s.link := rfl
@[simp] theorem setInput_composer (w : Sensor) (x : Input) : (setInput w x s).composer = s.composer := rfl
@[simp] theorem setInput_line (w : Sensor) (x : Input) : (setInput w x s).line = s.line := rfl
@[simp] theorem setInput_wheel (w : Sensor) (x : Input) : (setInput w x s).wheel = s.wheel := rfl
@[simp] theorem setInput_strikeQueue (w : Sensor) (x : Input) : (setInput w x s).strikeQueue = s.strikeQueue := rfl
@[simp] theorem setInput_engine (w : Sensor) (x : Input) : (setInput w x s).engine = s.engine := rfl
@[simp] theorem setInput_correction (w : Sensor) (x : Input) : (setInput w x s).correction = s.correction := rfl
@[simp] theorem setInput_impression (w : Sensor) (x : Input) : (setInput w x s).impression = s.impression := rfl
@[simp] theorem setInput_zone (w : Sensor) (x : Input) : (setInput w x s).zone = s.zone := rfl
@[simp] theorem setInput_spelling (w : Sensor) (x : Input) : (setInput w x s).spelling = s.spelling := rfl
@[simp] theorem setInput_display (w : Sensor) (x : Input) : (setInput w x s).display = s.display := rfl
@[simp] theorem setInput_memory (w : Sensor) (x : Input) : (setInput w x s).memory = s.memory := rfl
@[simp] theorem setInput_chip (w : Sensor) (x : Input) : (setInput w x s).chip = s.chip := rfl
@[simp] theorem setInput_sensors (w : Sensor) (x : Input) : (setInput w x s).sensors = s.sensors.set w x := rfl
@[simp] theorem setInput_sounder (w : Sensor) (x : Input) : (setInput w x s).sounder = s.sounder := rfl
@[simp] theorem setInput_pins (w : Sensor) (x : Input) : (setInput w x s).pins = s.pins := rfl
@[simp] theorem setInput_now (w : Sensor) (x : Input) : (setInput w x s).now = s.now := rfl
@[simp] theorem setInput_fresh (w : Sensor) (x : Input) : (setInput w x s).fresh = s.fresh := rfl
@[simp] theorem setInput_pending (w : Sensor) (x : Input) : (setInput w x s).pending = s.pending := rfl

@[simp] theorem addAtTail_link (x : List Order) : (addAtTail x s).link = s.link := rfl
@[simp] theorem addAtTail_composer (x : List Order) : (addAtTail x s).composer = s.composer := rfl
@[simp] theorem addAtTail_line (x : List Order) : (addAtTail x s).line = s.line := rfl
@[simp] theorem addAtTail_wheel (x : List Order) : (addAtTail x s).wheel = s.wheel := rfl
@[simp] theorem addAtTail_strikeQueue (x : List Order) : (addAtTail x s).strikeQueue = s.strikeQueue ++ x := rfl
@[simp] theorem addAtTail_engine (x : List Order) : (addAtTail x s).engine = s.engine := rfl
@[simp] theorem addAtTail_correction (x : List Order) : (addAtTail x s).correction = s.correction := rfl
@[simp] theorem addAtTail_impression (x : List Order) : (addAtTail x s).impression = s.impression := rfl
@[simp] theorem addAtTail_zone (x : List Order) : (addAtTail x s).zone = s.zone := rfl
@[simp] theorem addAtTail_spelling (x : List Order) : (addAtTail x s).spelling = s.spelling := rfl
@[simp] theorem addAtTail_display (x : List Order) : (addAtTail x s).display = s.display := rfl
@[simp] theorem addAtTail_memory (x : List Order) : (addAtTail x s).memory = s.memory := rfl
@[simp] theorem addAtTail_chip (x : List Order) : (addAtTail x s).chip = s.chip := rfl
@[simp] theorem addAtTail_sensors (x : List Order) : (addAtTail x s).sensors = s.sensors := rfl
@[simp] theorem addAtTail_sounder (x : List Order) : (addAtTail x s).sounder = s.sounder := rfl
@[simp] theorem addAtTail_pins (x : List Order) : (addAtTail x s).pins = s.pins := rfl
@[simp] theorem addAtTail_now (x : List Order) : (addAtTail x s).now = s.now := rfl
@[simp] theorem addAtTail_fresh (x : List Order) : (addAtTail x s).fresh = s.fresh := rfl
@[simp] theorem addAtTail_pending (x : List Order) : (addAtTail x s).pending = s.pending := rfl

@[simp] theorem addHeat_link (x : Nat) : (addHeat x s).link = s.link := rfl
@[simp] theorem addHeat_composer (x : Nat) : (addHeat x s).composer = s.composer := rfl
@[simp] theorem addHeat_line (x : Nat) : (addHeat x s).line = s.line := rfl
@[simp] theorem addHeat_wheel (x : Nat) : (addHeat x s).wheel = s.wheel := rfl
@[simp] theorem addHeat_strikeQueue (x : Nat) : (addHeat x s).strikeQueue = s.strikeQueue := rfl
@[simp] theorem addHeat_engine (x : Nat) : (addHeat x s).engine = s.engine := rfl
@[simp] theorem addHeat_correction (x : Nat) : (addHeat x s).correction = s.correction := rfl
@[simp] theorem addHeat_impression (x : Nat) : (addHeat x s).impression = { s.impression with heat := s.impression.heat + x } := rfl
@[simp] theorem addHeat_zone (x : Nat) : (addHeat x s).zone = s.zone := rfl
@[simp] theorem addHeat_spelling (x : Nat) : (addHeat x s).spelling = s.spelling := rfl
@[simp] theorem addHeat_display (x : Nat) : (addHeat x s).display = s.display := rfl
@[simp] theorem addHeat_memory (x : Nat) : (addHeat x s).memory = s.memory := rfl
@[simp] theorem addHeat_chip (x : Nat) : (addHeat x s).chip = s.chip := rfl
@[simp] theorem addHeat_sensors (x : Nat) : (addHeat x s).sensors = s.sensors := rfl
@[simp] theorem addHeat_sounder (x : Nat) : (addHeat x s).sounder = s.sounder := rfl
@[simp] theorem addHeat_pins (x : Nat) : (addHeat x s).pins = s.pins := rfl
@[simp] theorem addHeat_now (x : Nat) : (addHeat x s).now = s.now := rfl
@[simp] theorem addHeat_fresh (x : Nat) : (addHeat x s).fresh = s.fresh := rfl
@[simp] theorem addHeat_pending (x : Nat) : (addHeat x s).pending = s.pending := rfl

@[simp] theorem setDictStatus_link (x : DictStatus) : (setDictStatus x s).link = s.link := rfl
@[simp] theorem setDictStatus_composer (x : DictStatus) : (setDictStatus x s).composer = s.composer := rfl
@[simp] theorem setDictStatus_line (x : DictStatus) : (setDictStatus x s).line = s.line := rfl
@[simp] theorem setDictStatus_wheel (x : DictStatus) : (setDictStatus x s).wheel = s.wheel := rfl
@[simp] theorem setDictStatus_strikeQueue (x : DictStatus) : (setDictStatus x s).strikeQueue = s.strikeQueue := rfl
@[simp] theorem setDictStatus_engine (x : DictStatus) : (setDictStatus x s).engine = s.engine := rfl
@[simp] theorem setDictStatus_correction (x : DictStatus) : (setDictStatus x s).correction = s.correction := rfl
@[simp] theorem setDictStatus_impression (x : DictStatus) : (setDictStatus x s).impression = s.impression := rfl
@[simp] theorem setDictStatus_zone (x : DictStatus) : (setDictStatus x s).zone = s.zone := rfl
@[simp] theorem setDictStatus_spelling (x : DictStatus) : (setDictStatus x s).spelling = { s.spelling with status := x } := rfl
@[simp] theorem setDictStatus_display (x : DictStatus) : (setDictStatus x s).display = s.display := rfl
@[simp] theorem setDictStatus_memory (x : DictStatus) : (setDictStatus x s).memory = s.memory := rfl
@[simp] theorem setDictStatus_chip (x : DictStatus) : (setDictStatus x s).chip = s.chip := rfl
@[simp] theorem setDictStatus_sensors (x : DictStatus) : (setDictStatus x s).sensors = s.sensors := rfl
@[simp] theorem setDictStatus_sounder (x : DictStatus) : (setDictStatus x s).sounder = s.sounder := rfl
@[simp] theorem setDictStatus_pins (x : DictStatus) : (setDictStatus x s).pins = s.pins := rfl
@[simp] theorem setDictStatus_now (x : DictStatus) : (setDictStatus x s).now = s.now := rfl
@[simp] theorem setDictStatus_fresh (x : DictStatus) : (setDictStatus x s).fresh = s.fresh := rfl
@[simp] theorem setDictStatus_pending (x : DictStatus) : (setDictStatus x s).pending = s.pending := rfl

@[simp] theorem withdrawUser_link (x : User) : (withdrawUser x s).link = s.link := rfl
@[simp] theorem withdrawUser_composer (x : User) : (withdrawUser x s).composer = s.composer := rfl
@[simp] theorem withdrawUser_line (x : User) : (withdrawUser x s).line = s.line := rfl
@[simp] theorem withdrawUser_wheel (x : User) : (withdrawUser x s).wheel = s.wheel := rfl
@[simp] theorem withdrawUser_strikeQueue (x : User) : (withdrawUser x s).strikeQueue = s.strikeQueue := rfl
@[simp] theorem withdrawUser_engine (x : User) : (withdrawUser x s).engine = s.engine := rfl
@[simp] theorem withdrawUser_correction (x : User) : (withdrawUser x s).correction = s.correction := rfl
@[simp] theorem withdrawUser_impression (x : User) : (withdrawUser x s).impression = s.impression := rfl
@[simp] theorem withdrawUser_zone (x : User) : (withdrawUser x s).zone = s.zone := rfl
@[simp] theorem withdrawUser_spelling (x : User) : (withdrawUser x s).spelling = s.spelling := rfl
@[simp] theorem withdrawUser_display (x : User) : (withdrawUser x s).display = s.display := rfl
@[simp] theorem withdrawUser_memory (x : User) : (withdrawUser x s).memory = s.memory.withdraw x := rfl
@[simp] theorem withdrawUser_chip (x : User) : (withdrawUser x s).chip = s.chip := rfl
@[simp] theorem withdrawUser_sensors (x : User) : (withdrawUser x s).sensors = s.sensors := rfl
@[simp] theorem withdrawUser_sounder (x : User) : (withdrawUser x s).sounder = s.sounder := rfl
@[simp] theorem withdrawUser_pins (x : User) : (withdrawUser x s).pins = s.pins := rfl
@[simp] theorem withdrawUser_now (x : User) : (withdrawUser x s).now = s.now := rfl
@[simp] theorem withdrawUser_fresh (x : User) : (withdrawUser x s).fresh = s.fresh := rfl
@[simp] theorem withdrawUser_pending (x : User) : (withdrawUser x s).pending = s.pending := rfl

@[simp] theorem askMemory_link (u : User) (x : Access) : (askMemory u x s).link = s.link := rfl
@[simp] theorem askMemory_composer (u : User) (x : Access) : (askMemory u x s).composer = s.composer := rfl
@[simp] theorem askMemory_line (u : User) (x : Access) : (askMemory u x s).line = s.line := rfl
@[simp] theorem askMemory_wheel (u : User) (x : Access) : (askMemory u x s).wheel = s.wheel := rfl
@[simp] theorem askMemory_strikeQueue (u : User) (x : Access) : (askMemory u x s).strikeQueue = s.strikeQueue := rfl
@[simp] theorem askMemory_engine (u : User) (x : Access) : (askMemory u x s).engine = s.engine := rfl
@[simp] theorem askMemory_correction (u : User) (x : Access) : (askMemory u x s).correction = s.correction := rfl
@[simp] theorem askMemory_impression (u : User) (x : Access) : (askMemory u x s).impression = s.impression := rfl
@[simp] theorem askMemory_zone (u : User) (x : Access) : (askMemory u x s).zone = s.zone := rfl
@[simp] theorem askMemory_spelling (u : User) (x : Access) : (askMemory u x s).spelling = s.spelling := rfl
@[simp] theorem askMemory_display (u : User) (x : Access) : (askMemory u x s).display = s.display := rfl
@[simp] theorem askMemory_memory (u : User) (x : Access) : (askMemory u x s).memory = s.memory.ask { user := u, access := x } := rfl
@[simp] theorem askMemory_chip (u : User) (x : Access) : (askMemory u x s).chip = s.chip := rfl
@[simp] theorem askMemory_sensors (u : User) (x : Access) : (askMemory u x s).sensors = s.sensors := rfl
@[simp] theorem askMemory_sounder (u : User) (x : Access) : (askMemory u x s).sounder = s.sounder := rfl
@[simp] theorem askMemory_pins (u : User) (x : Access) : (askMemory u x s).pins = s.pins := rfl
@[simp] theorem askMemory_now (u : User) (x : Access) : (askMemory u x s).now = s.now := rfl
@[simp] theorem askMemory_fresh (u : User) (x : Access) : (askMemory u x s).fresh = s.fresh := rfl
@[simp] theorem askMemory_pending (u : User) (x : Access) : (askMemory u x s).pending = s.pending := rfl

@[simp] theorem modifyCell_link (i : Nat) (x : Cell → Cell) : (modifyCell i x s).link = s.link := rfl
@[simp] theorem modifyCell_composer (i : Nat) (x : Cell → Cell) : (modifyCell i x s).composer = s.composer := rfl
@[simp] theorem modifyCell_line (i : Nat) (x : Cell → Cell) : (modifyCell i x s).line = { s.line with cells := modifyCells i x s.line.cells } := rfl
@[simp] theorem modifyCell_wheel (i : Nat) (x : Cell → Cell) : (modifyCell i x s).wheel = s.wheel := rfl
@[simp] theorem modifyCell_strikeQueue (i : Nat) (x : Cell → Cell) : (modifyCell i x s).strikeQueue = s.strikeQueue := rfl
@[simp] theorem modifyCell_engine (i : Nat) (x : Cell → Cell) : (modifyCell i x s).engine = s.engine := rfl
@[simp] theorem modifyCell_correction (i : Nat) (x : Cell → Cell) : (modifyCell i x s).correction = s.correction := rfl
@[simp] theorem modifyCell_impression (i : Nat) (x : Cell → Cell) : (modifyCell i x s).impression = s.impression := rfl
@[simp] theorem modifyCell_zone (i : Nat) (x : Cell → Cell) : (modifyCell i x s).zone = s.zone := rfl
@[simp] theorem modifyCell_spelling (i : Nat) (x : Cell → Cell) : (modifyCell i x s).spelling = s.spelling := rfl
@[simp] theorem modifyCell_display (i : Nat) (x : Cell → Cell) : (modifyCell i x s).display = s.display := rfl
@[simp] theorem modifyCell_memory (i : Nat) (x : Cell → Cell) : (modifyCell i x s).memory = s.memory := rfl
@[simp] theorem modifyCell_chip (i : Nat) (x : Cell → Cell) : (modifyCell i x s).chip = s.chip := rfl
@[simp] theorem modifyCell_sensors (i : Nat) (x : Cell → Cell) : (modifyCell i x s).sensors = s.sensors := rfl
@[simp] theorem modifyCell_sounder (i : Nat) (x : Cell → Cell) : (modifyCell i x s).sounder = s.sounder := rfl
@[simp] theorem modifyCell_pins (i : Nat) (x : Cell → Cell) : (modifyCell i x s).pins = s.pins := rfl
@[simp] theorem modifyCell_now (i : Nat) (x : Cell → Cell) : (modifyCell i x s).now = s.now := rfl
@[simp] theorem modifyCell_fresh (i : Nat) (x : Cell → Cell) : (modifyCell i x s).fresh = s.fresh := rfl
@[simp] theorem modifyCell_pending (i : Nat) (x : Cell → Cell) : (modifyCell i x s).pending = s.pending := rfl

@[simp] theorem showMessage_link (d : Nat) (x : List Byte) : (showMessage d x s).link = s.link := rfl
@[simp] theorem showMessage_composer (d : Nat) (x : List Byte) : (showMessage d x s).composer = s.composer := rfl
@[simp] theorem showMessage_line (d : Nat) (x : List Byte) : (showMessage d x s).line = s.line := rfl
@[simp] theorem showMessage_wheel (d : Nat) (x : List Byte) : (showMessage d x s).wheel = s.wheel := rfl
@[simp] theorem showMessage_strikeQueue (d : Nat) (x : List Byte) : (showMessage d x s).strikeQueue = s.strikeQueue := rfl
@[simp] theorem showMessage_engine (d : Nat) (x : List Byte) : (showMessage d x s).engine = s.engine := rfl
@[simp] theorem showMessage_correction (d : Nat) (x : List Byte) : (showMessage d x s).correction = s.correction := rfl
@[simp] theorem showMessage_impression (d : Nat) (x : List Byte) : (showMessage d x s).impression = s.impression := rfl
@[simp] theorem showMessage_zone (d : Nat) (x : List Byte) : (showMessage d x s).zone = s.zone := rfl
@[simp] theorem showMessage_spelling (d : Nat) (x : List Byte) : (showMessage d x s).spelling = s.spelling := rfl
@[simp] theorem showMessage_memory (d : Nat) (x : List Byte) : (showMessage d x s).memory = s.memory := rfl
@[simp] theorem showMessage_chip (d : Nat) (x : List Byte) : (showMessage d x s).chip = s.chip := rfl
@[simp] theorem showMessage_sensors (d : Nat) (x : List Byte) : (showMessage d x s).sensors = s.sensors := rfl
@[simp] theorem showMessage_sounder (d : Nat) (x : List Byte) : (showMessage d x s).sounder = s.sounder := rfl
@[simp] theorem showMessage_pins (d : Nat) (x : List Byte) : (showMessage d x s).pins = s.pins := rfl
@[simp] theorem showMessage_now (d : Nat) (x : List Byte) : (showMessage d x s).now = s.now := rfl
@[simp] theorem showMessage_fresh (d : Nat) (x : List Byte) : (showMessage d x s).fresh = s.fresh := rfl
@[simp] theorem showMessage_pending (d : Nat) (x : List Byte) : (showMessage d x s).pending = s.pending := rfl

@[simp] theorem endOverlay_link : (endOverlay s).link = s.link := rfl
@[simp] theorem endOverlay_composer : (endOverlay s).composer = s.composer := rfl
@[simp] theorem endOverlay_line : (endOverlay s).line = s.line := rfl
@[simp] theorem endOverlay_wheel : (endOverlay s).wheel = s.wheel := rfl
@[simp] theorem endOverlay_strikeQueue : (endOverlay s).strikeQueue = s.strikeQueue := rfl
@[simp] theorem endOverlay_engine : (endOverlay s).engine = s.engine := rfl
@[simp] theorem endOverlay_correction : (endOverlay s).correction = s.correction := rfl
@[simp] theorem endOverlay_impression : (endOverlay s).impression = s.impression := rfl
@[simp] theorem endOverlay_zone : (endOverlay s).zone = s.zone := rfl
@[simp] theorem endOverlay_spelling : (endOverlay s).spelling = s.spelling := rfl
@[simp] theorem endOverlay_display : (endOverlay s).display = { s.display with overlay := none } := rfl
@[simp] theorem endOverlay_memory : (endOverlay s).memory = s.memory := rfl
@[simp] theorem endOverlay_chip : (endOverlay s).chip = s.chip := rfl
@[simp] theorem endOverlay_sensors : (endOverlay s).sensors = s.sensors := rfl
@[simp] theorem endOverlay_sounder : (endOverlay s).sounder = s.sounder := rfl
@[simp] theorem endOverlay_pins : (endOverlay s).pins = s.pins := rfl
@[simp] theorem endOverlay_now : (endOverlay s).now = s.now := rfl
@[simp] theorem endOverlay_fresh : (endOverlay s).fresh = s.fresh := rfl
@[simp] theorem endOverlay_pending : (endOverlay s).pending = s.pending := rfl

@[simp] theorem decayStep_link : (decayStep s).link = s.link := rfl
@[simp] theorem decayStep_composer : (decayStep s).composer = s.composer := rfl
@[simp] theorem decayStep_line : (decayStep s).line = s.line := rfl
@[simp] theorem decayStep_wheel : (decayStep s).wheel = s.wheel := rfl
@[simp] theorem decayStep_strikeQueue : (decayStep s).strikeQueue = s.strikeQueue := rfl
@[simp] theorem decayStep_engine : (decayStep s).engine = s.engine := rfl
@[simp] theorem decayStep_correction : (decayStep s).correction = s.correction := rfl
@[simp] theorem decayStep_zone : (decayStep s).zone = s.zone := rfl
@[simp] theorem decayStep_spelling : (decayStep s).spelling = s.spelling := rfl
@[simp] theorem decayStep_display : (decayStep s).display = s.display := rfl
@[simp] theorem decayStep_memory : (decayStep s).memory = s.memory := rfl
@[simp] theorem decayStep_chip : (decayStep s).chip = s.chip := rfl
@[simp] theorem decayStep_sensors : (decayStep s).sensors = s.sensors := rfl
@[simp] theorem decayStep_sounder : (decayStep s).sounder = s.sounder := rfl
@[simp] theorem decayStep_pins : (decayStep s).pins = s.pins := rfl
@[simp] theorem decayStep_now : (decayStep s).now = s.now := rfl
@[simp] theorem decayStep_fresh : (decayStep s).fresh = s.fresh := rfl
@[simp] theorem decayStep_pending : (decayStep s).pending = s.pending := rfl

@[simp] theorem latchCooling_link : (latchCooling s).link = s.link := rfl
@[simp] theorem latchCooling_composer : (latchCooling s).composer = s.composer := rfl
@[simp] theorem latchCooling_line : (latchCooling s).line = s.line := rfl
@[simp] theorem latchCooling_wheel : (latchCooling s).wheel = s.wheel := rfl
@[simp] theorem latchCooling_strikeQueue : (latchCooling s).strikeQueue = s.strikeQueue := rfl
@[simp] theorem latchCooling_engine : (latchCooling s).engine = s.engine := rfl
@[simp] theorem latchCooling_correction : (latchCooling s).correction = s.correction := rfl
@[simp] theorem latchCooling_impression : (latchCooling s).impression = { s.impression with coolingLatch := coolingCalls s.impression } := rfl
@[simp] theorem latchCooling_zone : (latchCooling s).zone = s.zone := rfl
@[simp] theorem latchCooling_spelling : (latchCooling s).spelling = s.spelling := rfl
@[simp] theorem latchCooling_display : (latchCooling s).display = s.display := rfl
@[simp] theorem latchCooling_memory : (latchCooling s).memory = s.memory := rfl
@[simp] theorem latchCooling_chip : (latchCooling s).chip = s.chip := rfl
@[simp] theorem latchCooling_sensors : (latchCooling s).sensors = s.sensors := rfl
@[simp] theorem latchCooling_sounder : (latchCooling s).sounder = s.sounder := rfl
@[simp] theorem latchCooling_pins : (latchCooling s).pins = s.pins := rfl
@[simp] theorem latchCooling_now : (latchCooling s).now = s.now := rfl
@[simp] theorem latchCooling_fresh : (latchCooling s).fresh = s.fresh := rfl
@[simp] theorem latchCooling_pending : (latchCooling s).pending = s.pending := rfl

@[simp] theorem closeRun_link : (closeRun s).link = s.link := rfl
@[simp] theorem closeRun_composer : (closeRun s).composer = { s.composer with openRun := [] } := rfl
@[simp] theorem closeRun_line : (closeRun s).line = s.line := rfl
@[simp] theorem closeRun_wheel : (closeRun s).wheel = s.wheel := rfl
@[simp] theorem closeRun_strikeQueue : (closeRun s).strikeQueue = s.strikeQueue := rfl
@[simp] theorem closeRun_engine : (closeRun s).engine = s.engine := rfl
@[simp] theorem closeRun_correction : (closeRun s).correction = s.correction := rfl
@[simp] theorem closeRun_impression : (closeRun s).impression = s.impression := rfl
@[simp] theorem closeRun_zone : (closeRun s).zone = s.zone := rfl
@[simp] theorem closeRun_spelling : (closeRun s).spelling = s.spelling := rfl
@[simp] theorem closeRun_display : (closeRun s).display = s.display := rfl
@[simp] theorem closeRun_memory : (closeRun s).memory = s.memory := rfl
@[simp] theorem closeRun_chip : (closeRun s).chip = s.chip := rfl
@[simp] theorem closeRun_sensors : (closeRun s).sensors = s.sensors := rfl
@[simp] theorem closeRun_sounder : (closeRun s).sounder = s.sounder := rfl
@[simp] theorem closeRun_pins : (closeRun s).pins = s.pins := rfl
@[simp] theorem closeRun_now : (closeRun s).now = s.now := rfl
@[simp] theorem closeRun_fresh : (closeRun s).fresh = s.fresh := rfl
@[simp] theorem closeRun_pending : (closeRun s).pending = s.pending := rfl

@[simp] theorem closeOpenWord_link : (closeOpenWord s).link = s.link := rfl
@[simp] theorem closeOpenWord_composer : (closeOpenWord s).composer = s.composer := rfl
@[simp] theorem closeOpenWord_line : (closeOpenWord s).line = s.line := rfl
@[simp] theorem closeOpenWord_wheel : (closeOpenWord s).wheel = s.wheel := rfl
@[simp] theorem closeOpenWord_strikeQueue : (closeOpenWord s).strikeQueue = s.strikeQueue := rfl
@[simp] theorem closeOpenWord_engine : (closeOpenWord s).engine = s.engine := rfl
@[simp] theorem closeOpenWord_correction : (closeOpenWord s).correction = s.correction := rfl
@[simp] theorem closeOpenWord_impression : (closeOpenWord s).impression = s.impression := rfl
@[simp] theorem closeOpenWord_zone : (closeOpenWord s).zone = s.zone := rfl
@[simp] theorem closeOpenWord_spelling : (closeOpenWord s).spelling = { s.spelling with openWord := .none, pendingApostrophe := none } := rfl
@[simp] theorem closeOpenWord_display : (closeOpenWord s).display = s.display := rfl
@[simp] theorem closeOpenWord_memory : (closeOpenWord s).memory = s.memory := rfl
@[simp] theorem closeOpenWord_chip : (closeOpenWord s).chip = s.chip := rfl
@[simp] theorem closeOpenWord_sensors : (closeOpenWord s).sensors = s.sensors := rfl
@[simp] theorem closeOpenWord_sounder : (closeOpenWord s).sounder = s.sounder := rfl
@[simp] theorem closeOpenWord_pins : (closeOpenWord s).pins = s.pins := rfl
@[simp] theorem closeOpenWord_now : (closeOpenWord s).now = s.now := rfl
@[simp] theorem closeOpenWord_fresh : (closeOpenWord s).fresh = s.fresh := rfl
@[simp] theorem closeOpenWord_pending : (closeOpenWord s).pending = s.pending := rfl

@[simp] theorem setComposites_link (x : List Composite) : (setComposites x s).link = s.link := rfl
@[simp] theorem setComposites_composer (x : List Composite) : (setComposites x s).composer = s.composer := rfl
@[simp] theorem setComposites_line (x : List Composite) : (setComposites x s).line = s.line := rfl
@[simp] theorem setComposites_wheel (x : List Composite) : (setComposites x s).wheel = { s.wheel with composites := x } := rfl
@[simp] theorem setComposites_strikeQueue (x : List Composite) : (setComposites x s).strikeQueue = s.strikeQueue := rfl
@[simp] theorem setComposites_engine (x : List Composite) : (setComposites x s).engine = s.engine := rfl
@[simp] theorem setComposites_correction (x : List Composite) : (setComposites x s).correction = s.correction := rfl
@[simp] theorem setComposites_impression (x : List Composite) : (setComposites x s).impression = s.impression := rfl
@[simp] theorem setComposites_zone (x : List Composite) : (setComposites x s).zone = s.zone := rfl
@[simp] theorem setComposites_spelling (x : List Composite) : (setComposites x s).spelling = s.spelling := rfl
@[simp] theorem setComposites_display (x : List Composite) : (setComposites x s).display = s.display := rfl
@[simp] theorem setComposites_memory (x : List Composite) : (setComposites x s).memory = s.memory := rfl
@[simp] theorem setComposites_chip (x : List Composite) : (setComposites x s).chip = s.chip := rfl
@[simp] theorem setComposites_sensors (x : List Composite) : (setComposites x s).sensors = s.sensors := rfl
@[simp] theorem setComposites_sounder (x : List Composite) : (setComposites x s).sounder = s.sounder := rfl
@[simp] theorem setComposites_pins (x : List Composite) : (setComposites x s).pins = s.pins := rfl
@[simp] theorem setComposites_now (x : List Composite) : (setComposites x s).now = s.now := rfl
@[simp] theorem setComposites_fresh (x : List Composite) : (setComposites x s).fresh = s.fresh := rfl
@[simp] theorem setComposites_pending (x : List Composite) : (setComposites x s).pending = s.pending := rfl

@[simp] theorem setStaging_link (x : Staging) : (setStaging x s).link = s.link := rfl
@[simp] theorem setStaging_composer (x : Staging) : (setStaging x s).composer = s.composer := rfl
@[simp] theorem setStaging_line (x : Staging) : (setStaging x s).line = s.line := rfl
@[simp] theorem setStaging_wheel (x : Staging) : (setStaging x s).wheel = { s.wheel with staging := x } := rfl
@[simp] theorem setStaging_strikeQueue (x : Staging) : (setStaging x s).strikeQueue = s.strikeQueue := rfl
@[simp] theorem setStaging_engine (x : Staging) : (setStaging x s).engine = s.engine := rfl
@[simp] theorem setStaging_correction (x : Staging) : (setStaging x s).correction = s.correction := rfl
@[simp] theorem setStaging_impression (x : Staging) : (setStaging x s).impression = s.impression := rfl
@[simp] theorem setStaging_zone (x : Staging) : (setStaging x s).zone = s.zone := rfl
@[simp] theorem setStaging_spelling (x : Staging) : (setStaging x s).spelling = s.spelling := rfl
@[simp] theorem setStaging_display (x : Staging) : (setStaging x s).display = s.display := rfl
@[simp] theorem setStaging_memory (x : Staging) : (setStaging x s).memory = s.memory := rfl
@[simp] theorem setStaging_chip (x : Staging) : (setStaging x s).chip = s.chip := rfl
@[simp] theorem setStaging_sensors (x : Staging) : (setStaging x s).sensors = s.sensors := rfl
@[simp] theorem setStaging_sounder (x : Staging) : (setStaging x s).sounder = s.sounder := rfl
@[simp] theorem setStaging_pins (x : Staging) : (setStaging x s).pins = s.pins := rfl
@[simp] theorem setStaging_now (x : Staging) : (setStaging x s).now = s.now := rfl
@[simp] theorem setStaging_fresh (x : Staging) : (setStaging x s).fresh = s.fresh := rfl
@[simp] theorem setStaging_pending (x : Staging) : (setStaging x s).pending = s.pending := rfl

@[simp] theorem reach_link (t : Time) : (s.reach t).link = s.link := rfl
@[simp] theorem reach_composer (t : Time) : (s.reach t).composer = s.composer := rfl
@[simp] theorem reach_line (t : Time) : (s.reach t).line = s.line := rfl
@[simp] theorem reach_wheel (t : Time) : (s.reach t).wheel = s.wheel := rfl
@[simp] theorem reach_strikeQueue (t : Time) : (s.reach t).strikeQueue = s.strikeQueue := rfl
@[simp] theorem reach_engine (t : Time) : (s.reach t).engine = s.engine := rfl
@[simp] theorem reach_correction (t : Time) : (s.reach t).correction = s.correction := rfl
@[simp] theorem reach_impression (t : Time) : (s.reach t).impression = s.impression := rfl
@[simp] theorem reach_zone (t : Time) : (s.reach t).zone = s.zone := rfl
@[simp] theorem reach_spelling (t : Time) : (s.reach t).spelling = s.spelling := rfl
@[simp] theorem reach_display (t : Time) : (s.reach t).display = s.display := rfl
@[simp] theorem reach_memory (t : Time) : (s.reach t).memory = s.memory := rfl
@[simp] theorem reach_chip (t : Time) : (s.reach t).chip = s.chip := rfl
@[simp] theorem reach_sensors (t : Time) : (s.reach t).sensors = s.sensors := rfl
@[simp] theorem reach_sounder (t : Time) : (s.reach t).sounder = s.sounder := rfl
@[simp] theorem reach_pins (t : Time) : (s.reach t).pins = s.pins := rfl
@[simp] theorem reach_now (t : Time) : (s.reach t).now = max s.now t := rfl
@[simp] theorem reach_fresh (t : Time) : (s.reach t).fresh = s.fresh := rfl
@[simp] theorem reach_pending (t : Time) : (s.reach t).pending = s.pending := rfl

end Sys2Proof.Machine
end

