-- ==== Sys2Proof/Laws/Link.lean ====
section
/-!
SUPPORT. What the Link Controller's operations do: the acceptance of a frame, the joining of a reply, the choice
of the next frame, and the taking of an event into the report queue.
-/

namespace Sys2Proof.Machine

variable (s : State)

theorem discards_eq_false_of_hears {s : State} (h : hears s) : discards s = false := by
  obtain ⟨h1, h2, h3⟩ := h
  have h4 : ¬ 8 ≤ s.link.replies.length := by omega
  simp [discards, h1, h2, Config.repliesMax, h4]

theorem discards_eq_true_of_not_hears {s : State} (h : ¬hears s) : discards s = true := by
  unfold hears at h
  simp only [discards, Config.repliesMax]
  cases hp : s.pins.resetLow
  · cases hr : s.link.resetPending
    · simp only [hp, hr, true_and, not_lt] at h
      simp [h]
    · simp
  · simp

/-- A frame that is heard is handed to its owner and answered. -/
theorem acceptFrame_of_hears {s : State} (h : hears s) (kind tag : Byte)
    (handler : List Byte → State → Handled) (body : List Byte) :
    acceptFrame kind tag handler body s = reply kind tag (handler body (hunt s)) := by
  simp [acceptFrame, discards_eq_false_of_hears h]

/-- A frame that is not heard is discarded. -/
theorem acceptFrame_of_not_hears {s : State} (h : ¬hears s) (kind tag : Byte)
    (handler : List Byte → State → Handled) (body : List Byte) :
    acceptFrame kind tag handler body s = hunt s := by
  simp [acceptFrame, discards_eq_true_of_not_hears h]

theorem fixedBody_of_length {n : Nat} {body : List Byte} (h : body.length = n)
    (handler : List Byte → State → Handled) : fixedBody n handler body s = handler body s := by
  simp [fixedBody, h]

theorem fixedBody_of_length_ne {n : Nat} {body : List Byte} (h : body.length ≠ n)
    (handler : List Byte → State → Handled) :
    fixedBody n handler body s = (s, { status := .badValue, data := [] }) := by
  simp [fixedBody, h, Status.alone]

/-- Everything that the line's choice of its next frame can do. -/
theorem chooseFrame_cases :
    (chooseFrame s = s ∧ (s.pins.resetLow = true ∨ s.link.transmit ≠ none ∨ s.link.replies = [])) ∨
    (∃ r rs, s.pins.resetLow = false ∧ s.link.transmit = none ∧ s.link.replies = r :: rs ∧
      chooseFrame s = sendFrame r (setLink { s.link with replies := rs } s)) ∨
    (∃ e es, s.pins.resetLow = false ∧ s.link.transmit = none ∧ s.link.replies = [] ∧
      s.link.resetPending = false ∧ s.link.reports = e :: es ∧
      chooseFrame s = sendFrame (reportFrame s e) (setLink { s.link with reports := es } s)) := by
  unfold chooseFrame
  by_cases h : s.pins.resetLow = true ∨ s.link.transmit ≠ none
  · left
    rcases h with h | h <;> simp [h]
  · obtain ⟨h1, h2⟩ := not_or.mp h
    have h1 : s.pins.resetLow = false := by simpa using h1
    have h2 : s.link.transmit = none := by simpa using h2
    simp only [h1, h2]
    cases hr : s.link.replies with
    | cons r rs => right; left; exact ⟨r, rs, by simp⟩
    | nil =>
      cases hp : s.link.resetPending with
      | true => left; simp
      | false =>
        cases he : s.link.reports with
        | nil => left; simp
        | cons e es => right; right; exact ⟨e, es, by simp⟩

/-- R182: the end of the reply that answers a RESET request OK. -/
theorem frameGone_of_resetReply {f : OutFrame} (hk : f.kind = 0xFF) (hb : f.body = [0])
    (h : s.link.resetPending = true) :
    frameGone f s =
      chooseFrame (resetMachine s.memory.protect { s with link := { s.link with transmit := none } }) := by
  simp [frameGone, OutFrame.isResetReply, setLink, hk, hb, h, byte, Status.code]

/-- R181: the end of any other frame. -/
theorem frameGone_of_other {f : OutFrame}
    (h : s.link.resetPending = false ∨ f.kind ≠ 0xFF ∨ f.body ≠ [0]) :
    frameGone f s = chooseFrame { s with link := { s.link with transmit := none } } := by
  have out : ¬(s.link.resetPending = true ∧ f.isResetReply = true) := by
    rintro ⟨a, b⟩
    simp [OutFrame.isResetReply, byte, Status.code] at b
    simp_all
  simp [frameGone, setLink, out]

/-- Everything that the taking of an event into the report queue can do. -/
theorem raise_cases (k : ReportKind) (r : Nat) (d : List Byte) :
    (s.link.mask.getLsbD k.index = false ∧ raise k r d s = s) ∨
    (s.link.mask.getLsbD k.index = true ∧
      raise k r d s = { s with link := { s.link with reports := coalesce k r d s.link.reports } }) := by
  unfold raise
  cases h : s.link.mask.getLsbD k.index <;> simp

theorem coalesce_kinds (k : ReportKind) (r : Nat) (d : List Byte) (q : List ReportEntry) :
    (coalesce k r d q).map (·.kind) =
      if q.any (fun e => e.kind == k) then q.map (·.kind) else q.map (·.kind) ++ [k] := by
  unfold coalesce
  split
  · simp only [List.map_map]
    apply List.map_congr_left
    intro e _
    simp only [Function.comp]
    split <;> simp_all
  · simp

/-- R179: the report queue holds at most one entry of each kind. -/
theorem coalesce_nodup (k : ReportKind) (r : Nat) (d : List Byte) (q : List ReportEntry)
    (h : (q.map (·.kind)).Nodup) : ((coalesce k r d q).map (·.kind)).Nodup := by
  rw [coalesce_kinds]
  split
  · exact h
  · rename_i hk
    simp only [Bool.not_eq_true, List.any_eq_false, beq_iff_eq] at hk
    rw [List.nodup_append]
    refine ⟨h, by simp, ?_⟩
    intro a ha b hb
    simp only [List.mem_map] at ha
    obtain ⟨e, he, rfl⟩ := ha
    simp only [List.mem_singleton] at hb
    subst hb
    exact hk e he

end Sys2Proof.Machine
end

