-- ==== Sys2Proof/Laws/Memory.lean ====
section
/-!
SUPPORT. The serial memory's bytes: every operation on them keeps the canonical form; a byte reads as what was
written there last, and a write leaves every other byte as it was.
-/

namespace Sys2Proof.Machine

theorem Memory.wf_tail {c : Host.Cell} {m : Memory} (h : Memory.wf (c :: m) = true) : Memory.wf m = true := by
  cases m with
  | nil => rfl
  | cons d rest => simp [Memory.wf] at h; exact h.2

theorem Memory.wf_head_ne {c : Host.Cell} {m : Memory} (h : Memory.wf (c :: m) = true) :
    c.2 ≠ erasedByte := by
  cases m with
  | nil => simpa [Memory.wf] using h
  | cons d rest => simp [Memory.wf] at h; exact h.1.1

/-- In the canonical form every later address lies above the first. -/
theorem Memory.wf_head_lt {c : Host.Cell} {m : Memory} (h : Memory.wf (c :: m) = true) :
    ∀ d ∈ m, c.1 < d.1 := by
  induction m generalizing c with
  | nil => simp
  | cons e rest ih =>
    have ht := Memory.wf_tail h
    simp [Memory.wf] at h
    intro d hd
    rcases List.mem_cons.1 hd with rfl | hd
    · exact h.1.2
    · exact Nat.lt_trans h.1.2 (ih ht d hd)

theorem Memory.wf_cons {c : Host.Cell} {m : Memory} (hb : c.2 ≠ erasedByte) (hl : ∀ d ∈ m, c.1 < d.1)
    (h : Memory.wf m = true) : Memory.wf (c :: m) = true := by
  cases m with
  | nil => simpa [Memory.wf] using hb
  | cons d rest => simp [Memory.wf, hb, hl d (by simp), h]

/-- Every listed address after a write is the address written or was listed. -/
theorem Memory.mem_write {a : Nat} {b : Byte} {m : Memory} {d : Host.Cell} (h : d ∈ m.write a b) :
    d.1 = a ∨ d ∈ m := by
  induction m with
  | nil =>
    simp only [Memory.write] at h
    split at h <;> simp_all
  | cons c rest ih =>
    simp only [Memory.write] at h
    split at h
    · split at h
      · exact .inr h
      · rcases List.mem_cons.1 h with rfl | h
        · exact .inl rfl
        · exact .inr h
    · split at h
      · split at h
        · exact .inr (List.mem_cons_of_mem _ h)
        · rcases List.mem_cons.1 h with rfl | h
          · exact .inl rfl
          · exact .inr (List.mem_cons_of_mem _ h)
      · rcases List.mem_cons.1 h with rfl | h
        · exact .inr (by simp)
        · rcases ih h with h | h
          · exact .inl h
          · exact .inr (List.mem_cons_of_mem _ h)

/-- A write keeps the canonical form. -/
theorem Memory.write_wf (a : Nat) (b : Byte) {m : Memory} (h : m.wf = true) : (m.write a b).wf = true := by
  induction m with
  | nil =>
    simp only [Memory.write]
    split
    · rfl
    · simpa [Memory.wf]
  | cons c rest ih =>
    have ht := Memory.wf_tail h
    have hl := Memory.wf_head_lt h
    have hb := Memory.wf_head_ne h
    simp only [Memory.write]
    split
    · next hlt =>
      split
      · exact h
      · next hne =>
        refine Memory.wf_cons hne (fun d hd => ?_) h
        rcases List.mem_cons.1 hd with rfl | hd
        · exact hlt
        · exact Nat.lt_trans hlt (hl d hd)
    · next hnlt =>
      split
      · next heq =>
        split
        · exact ht
        · next hne => exact Memory.wf_cons hne (fun d hd => heq ▸ hl d hd) ht
      · next hne =>
        refine Memory.wf_cons hb (fun d hd => ?_) (ih ht)
        rcases Memory.mem_write hd with h | h
        · omega
        · exact hl d h

theorem Memory.writeAll_wf (bs : List Byte) (a : Nat) {m : Memory} (h : m.wf = true) :
    (m.writeAll a bs).wf = true := by
  induction bs generalizing a m with
  | nil => exact h
  | cons b bs ih => exact ih (a + 1) (Memory.write_wf a b h)

theorem Memory.read_of_all_above {m : Memory} {a : Nat} (h : ∀ d ∈ m, a < d.1) : m.read a = erasedByte := by
  have : m.find? (fun c => c.1 == a) = none := by
    rw [List.find?_eq_none]
    intro d hd
    have := h d hd
    simp
    omega
  simp [Memory.read, this]

theorem Memory.read_cons_self {c : Host.Cell} {m : Memory} : Memory.read (c :: m) c.1 = c.2 := by
  simp [Memory.read]

theorem Memory.read_cons_ne {c : Host.Cell} {m : Memory} {a : Nat} (h : c.1 ≠ a) :
    Memory.read (c :: m) a = Memory.read m a := by
  simp [Memory.read, h]

/-- A byte reads as what was written there. -/
theorem Memory.read_write_self (a : Nat) (b : Byte) {m : Memory} (h : m.wf = true) :
    (m.write a b).read a = b := by
  induction m with
  | nil =>
    by_cases hb : b = erasedByte <;> simp [Memory.write, Memory.read, hb]
  | cons c rest ih =>
    have hl := Memory.wf_head_lt h
    simp only [Memory.write]
    split
    · next hlt =>
      split
      · next hb =>
        rw [hb]
        refine Memory.read_of_all_above fun d hd => ?_
        rcases List.mem_cons.1 hd with rfl | hd
        · exact hlt
        · exact Nat.lt_trans hlt (hl d hd)
      · exact Memory.read_cons_self
    · split
      · next heq =>
        split
        · next hb =>
          rw [hb, heq]
          exact Memory.read_of_all_above hl
        · exact Memory.read_cons_self
      · next hne =>
        rw [Memory.read_cons_ne (fun h => hne h.symm)]
        exact ih (Memory.wf_tail h)

/-- A write leaves every other byte as it was. -/
theorem Memory.read_write_ne {a n : Nat} (b : Byte) (hn : n ≠ a) (m : Memory) :
    (m.write a b).read n = m.read n := by
  induction m with
  | nil =>
    by_cases hb : b = erasedByte
    · simp [Memory.write, hb]
    · simp [Memory.write, hb, Memory.read, Ne.symm hn]
  | cons c rest ih =>
    simp only [Memory.write]
    split
    · split
      · rfl
      · exact Memory.read_cons_ne (Ne.symm hn)
    · split
      · next heq =>
        have hc : c.1 ≠ n := fun h => hn (by omega)
        split
        · exact (Memory.read_cons_ne hc).symm
        · rw [Memory.read_cons_ne (Ne.symm hn), Memory.read_cons_ne hc]
      · by_cases hc : c.1 = n
        · subst hc
          rw [Memory.read_cons_self, Memory.read_cons_self]
        · rw [Memory.read_cons_ne hc, Memory.read_cons_ne hc, ih]

/-- Bytes written leave every byte outside them as it was. -/
theorem Memory.read_writeAll_outside (bs : List Byte) {a n : Nat} (h : n < a ∨ a + bs.length ≤ n) (m : Memory) :
    (m.writeAll a bs).read n = m.read n := by
  induction bs generalizing a m with
  | nil => rfl
  | cons b bs ih =>
    simp only [List.length_cons] at h
    rw [Memory.writeAll, ih (by omega), Memory.read_write_ne b (by omega)]

/-- Each of the bytes written reads back. -/
theorem Memory.read_writeAll (bs : List Byte) (a k : Nat) {b : Byte} (hb : bs[k]? = some b) {m : Memory}
    (h : m.wf = true) : (m.writeAll a bs).read (a + k) = b := by
  induction bs generalizing a k m with
  | nil => simp at hb
  | cons c bs ih =>
    rw [Memory.writeAll]
    cases k with
    | zero =>
      simp only [List.getElem?_cons_zero, Option.some.injEq] at hb
      rw [Memory.read_writeAll_outside bs (by omega), hb]
      exact Memory.read_write_self a b h
    | succ k =>
      simp only [List.getElem?_cons_succ] at hb
      rw [show a + (k + 1) = a + 1 + k by omega]
      exact ih (a + 1) k hb (Memory.write_wf a c h)

theorem Memory.length_readAll (m : Memory) (a n : Nat) : (m.readAll a n).length = n := by
  simp [Memory.readAll]

theorem Chip.length_read4 (c : Chip) (w : AddressWidth) (a : Nat) : (c.read4 w a).length = 4 := by
  unfold Chip.read4
  split <;> simp [Memory.readAll]

/-- The memory after reset lists nothing, which is the canonical form. -/
theorem State.reset_memory_wf : State.reset.chip.cells.wf = true := rfl

end Sys2Proof.Machine
end

