-- ==== Sys2Proof/Laws/Parts.lean ====
section
/-!
SUPPORT. What the shared operations of the Composer, the Line Memory, the sounder and the display can do, each
said once.
-/

namespace Sys2Proof.Machine

variable (s : State)

/-! ### The sounder -/

/-- Everything that asking for a one-shot can do. -/
theorem askSound_cases (o : OneShot) :
    askSound o s = s ∨
    (s.sounder.tone = false ∧ s.sounder.playing = none ∧
      askSound o s =
        { s with sounder := { s.sounder with playing := some { shot := o, ends := s.now + o.length } } }) ∨
    (s.sounder.tone = false ∧ s.sounder.playing ≠ none ∧ s.sounder.queue.length < 4 ∧
      askSound o s = { s with sounder := { s.sounder with queue := s.sounder.queue ++ [o] } }) := by
  unfold askSound oneShotOutcome
  cases ht : s.sounder.tone
  · by_cases hv : s.sounder.volume = 0
    · simp [hv]
    · by_cases hb : o = .bell ∧ s.sounder.bellEnable = false
      · simp [hv, hb]
      · cases hp : s.sounder.playing
        · simp [hv, hb]
        · by_cases hq : 4 ≤ s.sounder.queue.length
          · simp [hv, hb, hq, Config.oneShotsMax]
          · have hq' : s.sounder.queue.length < 4 := by omega
            simp [hv, hb, hq, hq', Config.oneShotsMax]
  · simp

/-- Asking for a one-shot keeps the sounder within its values. -/
theorem askSound_allowed (o : OneShot) (h : sounderAllowed s.sounder) :
    sounderAllowed (askSound o s).sounder := by
  unfold sounderAllowed at h
  rcases askSound_cases s o with e | ⟨ht, hp, e⟩ | ⟨ht, hp, hq, e⟩ <;> rw [e]
  · exact h
  · simp_all [sounderAllowed]
  · simp_all [sounderAllowed]

/-- What the speaker gives: the tone, silence, or the one-shot that plays. -/
theorem output_cases (x : Sounder) (now : Nat) :
    (x.tone = true ∧ x.output now = some { frequency := x.frequency, loudness := .fixed, decaying := false }) ∨
    (x.tone = false ∧ x.output now = none) ∨
    (x.tone = false ∧ x.volume ≠ 0 ∧ ∃ p f, x.playing = some p ∧
      frequencyAt p.shot.sound (now + p.shot.length - p.ends) = some f ∧
      x.output now = some { frequency := f, loudness := .volume x.volume, decaying := p.shot.decays }) := by
  cases ht : x.tone
  · cases hp : x.playing with
    | none => simp [Sounder.output, ht, hp]
    | some p =>
      by_cases hv : x.volume = 0
      · simp [Sounder.output, ht, hp, hv]
      · cases hf : frequencyAt p.shot.sound (now + p.shot.length - p.ends) <;>
          simp [Sounder.output, ht, hp, hv, hf]
  · simp [Sounder.output, ht]

/-! ### The display -/

/-- A render changes the display alone. -/
theorem render_eq : render s = { s with display := (render s).display } := by
  unfold render
  split <;> rfl

theorem render_of_not_rendered (h : s.display.rendered = false) : render s = s := by
  simp [render, h]

theorem length_padCells (n : Nat) (cells : List DisplayCell) : (padCells n cells).length = n := by
  simp [padCells]
  omega

theorem length_withCursor (on : Bool) (k : Nat) (cells : List DisplayCell) :
    (withCursor on k cells).length = cells.length := by
  unfold withCursor
  split <;> simp

theorem length_textCells : (textCells s).length = 28 := by
  unfold textCells
  split <;> simp [length_withCursor, length_padCells, Config.textColumns]

/-- R146: the cursor stands in the text columns. -/
theorem placeCursor_column_le : (placeCursor s).cursorColumn ≤ 27 := by
  simp only [placeCursor, judgeWindow]
  split
  · omega
  · split <;> omega

/-- A render keeps the display of 32 cells with its cursor in the text columns. -/
theorem render_allowed (h : displayAllowed s.display) : displayAllowed (render s).display := by
  unfold render
  split
  · refine ⟨?_, ?_⟩
    · simp [length_textCells, statusCells]
    · exact placeCursor_column_le s
  · exact h

/-! ### The outputs of the engine -/

/-- What the motors and the hammer are given: nothing, a homing phase's motion, rest, or what the order in progress
needs. -/
theorem mechanismOutput_cases :
    mechanismOutput s = { motors := .off, platen := none, hammer := .inhibited } ∨
    (∃ x, s.engine.state = .homing ∧ s.engine.homing = some x ∧
      mechanismOutput s = { outputAtRest s with motors := .homing x }) ∨
    mechanismOutput s = outputAtRest s ∨
    (∃ o, s.engine.state = .running ∧ s.engine.order = some o ∧ mechanismOutput s = orderOutput o s) := by
  unfold mechanismOutput
  split
  · exact .inl rfl
  · exact .inl rfl
  · exact .inl rfl
  · split <;> simp_all
  · simp
  · simp
  · simp
  · simp
  · split <;> simp_all

/-- The hammer is driven in DRIVE of a RUNNING engine's order and at no other time. -/
theorem hammer_driven_iff : (mechanismOutput s).hammer = .driven ↔
    s.engine.state = .running ∧ ∃ o, s.engine.order = some o ∧ o.phase = .drive := by
  constructor
  · intro h
    rcases mechanismOutput_cases (s := s) with e | ⟨x, -, -, e⟩ | e | ⟨o, hr, ho, e⟩ <;> rw [e] at h
    · cases h
    · cases h
    · cases h
    · refine ⟨hr, o, ho, ?_⟩
      cases hp : o.phase <;> simp [orderOutput, outputAtRest, hp] at h ⊢
  · rintro ⟨hr, o, ho, hp⟩
    simp [mechanismOutput, hr, ho, orderOutput, hp]

/-! ### A write that fails -/

/-- A failed write reaches some of its bytes, and never the settings record's check byte. -/
theorem failedReach_le (fresh a n : Nat) :
    failedReach fresh a n ≤ n ∧ (a ≤ 0x00FF → a + failedReach fresh a n ≤ 0x00FF) := by
  unfold failedReach
  dsimp only
  split <;> omega

/-! ### Taking an item -/

theorem takeItem_of_empty (accepts : Byte → Bool) (f : Byte → State → State) (h : s.composer.keyQueue = []) :
    takeItem accepts f s = s := by
  simp [takeItem, h]

theorem takeItem_of_other {accepts : Byte → Bool} {code : Byte} {rest : List Byte} (f : Byte → State → State)
    (h : s.composer.keyQueue = code :: rest) (ha : accepts code = false) : takeItem accepts f s = s := by
  simp [takeItem, h, ha]

theorem takeItem_of_waits {accepts : Byte → Bool} {code : Byte} {rest : List Byte} (f : Byte → State → State)
    (h : s.composer.keyQueue = code :: rest) (ha : accepts code = true) (hw : (waitsFor s code).any = true) :
    takeItem accepts f s = textEvent s := by
  simp [takeItem, h, ha, hw]

theorem takeItem_of_taken {accepts : Byte → Bool} {code : Byte} {rest : List Byte} (f : Byte → State → State)
    (h : s.composer.keyQueue = code :: rest) (ha : accepts code = true) (hw : (waitsFor s code).any = false) :
    takeItem accepts f s = textEvent (rearmAfter s.composer.printPoint (f code (takeHead rest s))) := by
  simp [takeItem, h, ha, hw]

/-! ### Removal -/

/-- Cells that leave the list change the list, the mark, the open run and the window alone. -/
theorem dropCells_eq (gone : Cell → Bool) :
    dropCells gone s =
      { s with
        line := { s.line with
          cells := s.line.cells.filter fun c => !gone c
          releaseMark := (dropCells gone s).line.releaseMark }
        composer := { s.composer with openRun := (dropCells gone s).composer.openRun }
        display := (dropCells gone s).display } := rfl

end Sys2Proof.Machine
end

