-- ==== Sys2Proof/Laws/Settle.lean ====
section
/-!
SUPPORT. Why the turns that `supplyQueue` and `settle` allow themselves are enough in every state: what is left to
plan, to start and to place shrinks with each turn, so one more turn changes nothing. From these follow the
equations by which the planner and the settling go on from state to state.
-/

namespace Sys2Proof.Machine

/-! ### What is left to plan -/

/-- R67: a cell that the cursor can stand at. -/
def Cell.unplanned (c : Cell) : Bool := c.state == .held || c.state == .pending

/-- What the planner, the starts and the waiting lifts go by. -/
def planView (s : State) : List Bool × List Order × Correction × Engine :=
  (s.line.cells.map Cell.unplanned, s.strikeQueue, s.correction, s.engine)

/-- How many cells are still to be planned. -/
def toPlan (s : State) : Nat := s.line.cells.countP Cell.unplanned

theorem toPlan_le (s : State) : toPlan s ≤ s.line.cells.length := List.countP_le_length

theorem toPlan_of_planView {s t : State} (h : s.line.cells.map Cell.unplanned = t.line.cells.map Cell.unplanned) :
    toPlan s = toPlan t := by
  have e (x : State) : toPlan x = (x.line.cells.map Cell.unplanned).countP id := by
    simp [toPlan, List.countP_map]
  rw [e, e, h]

/-- How many lifts have no place in the strike queue. -/
def liftsLeft (x : Correction) : Nat := x.waiting.length + if x.deferred.isSome then 1 else 0

/-- The orders that can still pass through the strike queue before a turn adds none. -/
def settleMeasure (s : State) : Nat := 9 * toPlan s + s.strikeQueue.length + 32 * liftsLeft s.correction

theorem settleMeasure_lt_settleFuel (s : State) : settleMeasure s < settleFuel s := by
  have h := toPlan_le s
  unfold settleMeasure settleFuel liftsLeft
  split <;> omega

variable (s : State)

theorem unplanned_modifyCells_le (id : Nat) (f : Cell → Cell) (h : ∀ c, (f c).unplanned = false) (l : List Cell) :
    (modifyCells id f l).countP Cell.unplanned ≤ l.countP Cell.unplanned := by
  induction l with
  | nil => simp [modifyCells]
  | cons c l ih =>
    simp only [modifyCells, List.map_cons, List.countP_cons] at ih ⊢
    split
    · simp only [h, Bool.false_eq_true, if_false]; omega
    · omega

theorem unplanned_modifyCells_lt (id : Nat) (f : Cell → Cell) (h : ∀ c, (f c).unplanned = false) {l : List Cell}
    {c : Cell} (hc : c ∈ l) (hi : c.id = id) (hu : c.unplanned = true) :
    (modifyCells id f l).countP Cell.unplanned < l.countP Cell.unplanned := by
  induction l with
  | nil => cases hc
  | cons d l ih =>
    have hl := unplanned_modifyCells_le id f h l
    simp only [modifyCells, List.map_cons, List.countP_cons] at ih hl ⊢
    rcases List.mem_cons.1 hc with rfl | hc
    · simp only [if_pos hi, h, hu, Bool.false_eq_true, if_false, if_true]; omega
    · have := ih hc
      split
      · simp only [h, Bool.false_eq_true, if_false]; omega
      · omega

/-! ### The planner -/

/-- R67: the cursor stands at the first unplanned cell. -/
theorem cursorFrom_some {before l b a : List Cell} {c : Cell} (h : cursorFrom before l = some (b, c, a)) :
    ∃ passed, l = passed ++ c :: a ∧ b = passed.reverse ++ before ∧ c.unplanned = true ∧
      ∀ d ∈ passed, d.unplanned = false := by
  induction l generalizing before with
  | nil => cases h
  | cons d l ih =>
    unfold cursorFrom at h
    split at h
    · next hd =>
      obtain ⟨rfl, rfl, rfl⟩ : before = b ∧ d = c ∧ l = a := by simpa using h
      exact ⟨[], rfl, rfl, by simpa [Cell.unplanned] using hd, by simp⟩
    · next hd =>
      obtain ⟨p, rfl, rfl, hc, hp⟩ := ih h
      refine ⟨d :: p, rfl, by simp, hc, ?_⟩
      rintro x (_ | ⟨_, hx⟩)
      · simpa [Cell.unplanned] using hd
      · exact hp x hx

/-- One turn of the planner: a cell fewer to plan, at most nine orders more. -/
structure PlanTurn (s t : State) : Prop where
  cells : t.line.cells.length = s.line.cells.length
  plans : toPlan t < toPlan s
  orders : t.strikeQueue.length ≤ s.strikeQueue.length + 9
  correction : t.correction = s.correction
  engine : t.engine = s.engine

theorem markLast_length (l : List Order) : (markLast l).length = l.length := by
  induction l using markLast.induct with
  | case1 => rfl
  | case2 o => rfl
  | case3 o rest h ih => rw [markLast]; simp [ih]; exact h

theorem buildGroup_length (f : Format) (w : WheelUnit) (p : Profile) (b a : List Cell) (c : Cell) :
    (buildGroup f w p b a c).orders.length ≤ 9 := by
  have hi : (inkOrders w p c).length ≤ 3 := by
    unfold inkOrders
    split
    · simp only [List.length_append]
      split <;> split <;> simp
    · simp
  have hu (q : Nat) : (underOrders f p c q).length ≤ 6 := by
    unfold underOrders underOffsets underCount
    simp only [List.length_map]
    split <;> simp
  unfold buildGroup
  simp only [markLast_length]
  refine (List.length_filter_le ..).trans ?_
  rw [List.length_append]
  split
  · next q _ _ => have := hu q; omega
  · simp; omega

theorem planTurn_handleGroup {b : Built} {c : Cell} {t : State} (hc : c ∈ s.line.cells)
    (hu : c.unplanned = true) (hb : b.orders.length ≤ 9) (h : handleGroup b c s = some t) : PlanTurn s t := by
  unfold handleGroup at h
  split at h
  · obtain rfl := Option.some.inj h
    exact { cells := by simp [modifyCell, modifyCells]
            plans := unplanned_modifyCells_lt _ _ (fun _ => rfl) hc rfl hu
            orders := Nat.le_add_right ..
            correction := rfl, engine := rfl }
  · split at h
    · next hr =>
      obtain rfl := Option.some.inj h
      have e : (s.strikeQueue ++ b.orders).length = s.strikeQueue.length + b.orders.length := List.length_append
      unfold queueRoom Config.strikeQueueMax at hr
      exact { cells := by simp [modifyCell, modifyCells, addAtTail]
              plans := unplanned_modifyCells_lt _ _ (fun _ => rfl) hc rfl hu
              orders := by show (s.strikeQueue ++ b.orders).length ≤ _; omega
              correction := rfl, engine := rfl }
    · cases h

theorem planTurn_setStruck {c : Cell} (hc : c ∈ s.line.cells) (hu : c.unplanned = true) :
    PlanTurn s (setCellState c.id .struck s) :=
  { cells := by simp [setCellState, modifyCell, modifyCells]
    plans := unplanned_modifyCells_lt _ _ (fun _ => rfl) hc rfl hu
    orders := Nat.le_add_right ..
    correction := rfl, engine := rfl }

theorem planTurn_planPending {b a : List Cell} {c : Cell} {t : State} (hc : c ∈ s.line.cells)
    (hu : c.unplanned = true) (h : planPending b c a s = some t) : PlanTurn s t := by
  unfold planPending at h
  simp only at h
  repeat' split at h
  all_goals first
    | (obtain rfl := Option.some.inj h; exact planTurn_setStruck s hc hu)
    | (refine planTurn_handleGroup s hc hu ?_ h; first | exact buildGroup_length .. | simp [returnGroup])
    | cases h

theorem planTurn_planOnce {t : State} (h : planOnce s = some t) : PlanTurn s t := by
  unfold planOnce at h
  split at h
  · cases h
  · split at h
    · cases h
    · next b c a hc =>
      obtain ⟨p, hl, -, hu, -⟩ := cursorFrom_some hc
      split at h
      · cases h
      · exact planTurn_planPending s (hl ▸ by simp) hu h

/-- Where the planner waits, no turn changes anything. -/
theorem planCells_waits (n : Nat) (h : planOnce s = none) : planCells n s = s := by
  cases n with
  | zero => rfl
  | succ n => unfold planCells; rw [h]

/-- As many turns as there are cells to plan are enough. -/
theorem planCells_enough (n m : Nat) : ∀ s, toPlan s ≤ n → toPlan s ≤ m → planCells n s = planCells m s := by
  induction n generalizing m with
  | zero =>
    intro s hn _
    cases m with
    | zero => rfl
    | succ m =>
      unfold planCells
      split
      · rfl
      · next h => exact absurd (planTurn_planOnce s h).plans (by omega)
  | succ n ih =>
    intro s hn hm
    cases m with
    | zero =>
      conv_lhs => unfold planCells
      split
      · rfl
      · next h => exact absurd (planTurn_planOnce s h).plans (by omega)
    | succ m =>
      unfold planCells
      split
      · rfl
      · next h =>
        have := (planTurn_planOnce s h).plans
        exact ih m _ (by omega) (by omega)

/-- R67: where the planner acts at its cursor, it goes on from what it made. -/
theorem supplyQueue_planOnce {t : State} (h : planOnce s = some t) (hw : s.correction.waiting = []) :
    supplyQueue s = supplyQueue t := by
  have p := planTurn_planOnce s h
  have e : planCells (s.line.cells.length + 1) s = planCells s.line.cells.length t := by
    conv_lhs => unfold planCells
    rw [h]
  have hs : supplyQueue s = planCells s.line.cells.length s := by unfold supplyQueue; rw [hw]; rfl
  have ht : supplyQueue t = planCells t.line.cells.length t := by unfold supplyQueue; rw [p.correction, hw]; rfl
  have hl := toPlan_le s
  rw [hs, ht, p.cells, ← e]
  exact planCells_enough _ _ s hl (by omega)

/-- R67: where the planner waits and no lift waits, nothing is supplied. -/
theorem supplyQueue_waits (h : planOnce s = none) (hw : s.correction.waiting = []) : supplyQueue s = s := by
  unfold supplyQueue
  rw [hw]
  exact planCells_waits s _ h

/-- R100: while a lift waits that does not fit, nothing is supplied. -/
theorem supplyQueue_full {g : LiftGroup} {rest : List LiftGroup} (hw : s.correction.waiting = g :: rest)
    (h : ¬g.orders.length ≤ queueRoom s) : supplyQueue s = s := by
  have e : takeWaiting s.correction.waiting.length s = s := by
    rw [hw]
    show takeWaiting (rest.length + 1) s = s
    unfold takeWaiting
    rw [hw]
    simp only [if_neg h]
  have p : planOnce s = none := by unfold planOnce; rw [hw]; simp
  unfold supplyQueue
  rw [e]
  exact planCells_waits s _ p

/-- R100: a waiting lift that fits is added at the tail, and its cell is LIFTING; the next one follows. -/
theorem supplyQueue_lift {g : LiftGroup} {rest : List LiftGroup} (hw : s.correction.waiting = g :: rest)
    (h : g.orders.length ≤ queueRoom s) :
    supplyQueue s = supplyQueue (setCellState g.cell .lifting
      (addAtTail g.orders { s with correction := { s.correction with waiting := rest } })) := by
  have e : takeWaiting s.correction.waiting.length s = takeWaiting rest.length (setCellState g.cell .lifting
      (addAtTail g.orders { s with correction := { s.correction with waiting := rest } })) := by
    rw [hw]
    show takeWaiting (rest.length + 1) s = _
    conv_lhs => unfold takeWaiting
    rw [hw]
    simp only [if_pos h]
  unfold supplyQueue
  rw [e]
  rfl

/-! ### What the operations of a start leave as it was -/

@[simp] theorem planView_raise (k : ReportKind) (r : Nat) (d : List Byte) :
    planView (raise k r d s) = planView s := by
  unfold raise; split <;> rfl

@[simp] theorem planView_askSound (o : OneShot) : planView (askSound o s) = planView s := by
  unfold askSound; split <;> rfl

@[simp] theorem planView_zoneEvent (c : ZoneCause) (a : Option Nat) (l x y : Nat) (b : Byte) :
    planView (zoneEvent c a l x y b s) = planView s := planView_raise ..

@[simp] theorem planView_refuseLift (x : LiftCheck) (c n : Nat) :
    planView (refuseLift x c n s) = planView s := by
  unfold refuseLift; split <;> simp

@[simp] theorem planView_judgeNote (c : Nat) : planView (judgeNote c s) = planView s := by
  unfold judgeNote
  split
  · rfl
  · split <;> simp

@[simp] theorem planView_classify (id : Nat) : planView (classify id s) = planView s := by
  unfold classify
  split
  · rfl
  · simp only
    split
    · rfl
    · split
      · rfl
      · exact (planView_raise ..).trans rfl
      · rfl
      · rfl

@[simp] theorem planView_removeWordRecord (id : Nat) : planView (removeWordRecord id s) = planView s := by
  unfold removeWordRecord; simp only; split <;> split <;> rfl

@[simp] theorem planView_reopenWord (id : Nat) : planView (reopenWord id s) = planView s := by
  unfold reopenWord; simp only; split <;> rfl

@[simp] theorem planView_wordLoses (b : Bool) (id : Nat) : planView (wordLoses b id s) = planView s := by
  unfold wordLoses
  split
  · rfl
  · split
    · simp
    · simp only
      split
      · rfl
      · split
        · exact (planView_reopenWord _ id).trans rfl
        · rw [planView_classify, planView_reopenWord]; rfl

@[simp] theorem planView_shortenRun (gone : List Nat) : planView (shortenRun gone s) = planView s := by
  unfold shortenRun
  split
  · split <;> rfl
  · rfl
  · rfl

@[simp] theorem planView_spellRemoved (b : Bool) (l : List Cell) :
    planView (spellRemoved b l s) = planView s := by
  unfold spellRemoved
  simp only
  generalize wordsOf l = ids
  have h (ids : List Nat) : ∀ s, planView (ids.foldl (fun s id => wordLoses b id s) s) = planView s := by
    induction ids with
    | nil => intro s; rfl
    | cons a l ih => intro s; exact (ih _).trans (planView_wordLoses s b a)
  rw [h, planView_shortenRun]; rfl

theorem unplanned_advanceTo (closed : Cell → Bool) (m : Nat) (l : List Cell) :
    (advanceTo closed m l).map Cell.unplanned = l.map Cell.unplanned := by
  induction l with
  | nil => rfl
  | cons c l ih =>
    unfold advanceTo
    have hc : (if c.isHeld = true then { c with state := CellState.pending } else c).unplanned = c.unplanned := by
      split
      · next h => simp_all [Cell.unplanned, Cell.isHeld]
      · rfl
    split
    · rfl
    · simp only [List.map_cons, hc]
      split
      · rfl
      · rw [ih]

@[simp] theorem planView_releaseAdvance : planView (releaseAdvance s) = planView s := by
  unfold releaseAdvance
  split
  · rfl
  · simp only [planView, unplanned_advanceTo]

/-! ### What a start leaves -/

/-- What an operation that takes nothing up leaves: no more to plan or to place, and the engine as it was. -/
structure NoMore (s t : State) : Prop where
  measure : 9 * toPlan t + 32 * liftsLeft t.correction + t.strikeQueue.length ≤
    9 * toPlan s + 32 * liftsLeft s.correction + s.strikeQueue.length
  engine : t.engine = s.engine

theorem NoMore.of_planView {s t : State} (h : planView t = planView s) : NoMore s t := by
  simp only [planView, Prod.mk.injEq] at h
  obtain ⟨hl, hq, hc, he⟩ := h
  exact { measure := by rw [toPlan_of_planView hl, hq, hc], engine := he }

theorem NoMore.trans {s t u : State} (h : NoMore s t) (g : NoMore t u) : NoMore s u :=
  { measure := g.measure.trans h.measure, engine := g.engine.trans h.engine }

theorem noMore_setCellState (id : Nat) (x : CellState) (h : x ≠ .held) (h' : x ≠ .pending) :
    NoMore s (setCellState id x s) := by
  have e := unplanned_modifyCells_le id (fun c => { c with state := x })
    (fun c => by cases x <;> simp_all [Cell.unplanned]) s.line.cells
  exact { measure := Nat.add_le_add_right (Nat.add_le_add_right (Nat.mul_le_mul_left _ e) _) _, engine := rfl }

theorem noMore_removeCells (b : Bool) (gone : Cell → Bool) : NoMore s (removeCells b gone s) := by
  refine NoMore.trans (t := dropCells gone s) ?_ (.of_planView ?_)
  · have e : toPlan (dropCells gone s) ≤ toPlan s :=
      (List.filter_sublist (p := fun c => !gone c)).countP_le
    exact { measure := Nat.add_le_add_right (Nat.add_le_add_right (Nat.mul_le_mul_left _ e) _) _, engine := rfl }
  · rw [removeCells, planView_releaseAdvance, planView_spellRemoved]

theorem noMore_buildDeferred (c : Nat) : NoMore s (buildDeferred c s) := by
  unfold buildDeferred
  split
  · next hd =>
    have hl : liftsLeft s.correction = s.correction.waiting.length + 1 := by simp [liftsLeft, hd]
    have h0 : NoMore s { s with correction := { s.correction with deferred := none } } :=
      { measure := by rw [hl]; simp [liftsLeft, toPlan], engine := rfl }
    simp only
    split
    · exact h0
    · split
      · exact h0.trans (noMore_removeCells ..)
      · split
        · split
          · next hr =>
            refine NoMore.trans (t := { s with
              correction := { s.correction with deferred := none }, strikeQueue := _ ++ s.strikeQueue })
              ?_ (noMore_setCellState _ _ _ (by simp) (by simp))
            refine { measure := ?_, engine := rfl }
            simp only [queueRoom, Config.strikeQueueMax] at hr
            rw [hl]
            simp only [liftsLeft, toPlan, Option.isSome_none, List.length_append]
            simp; omega
          · refine { measure := ?_, engine := rfl }
            rw [hl]
            simp [liftsLeft, toPlan]
        · exact h0.trans (.of_planView (planView_refuseLift ..))
  · exact .of_planView rfl

theorem noMore_finishStrikeGroup (c : Nat) :
    NoMore (setEngine { s.engine with groupStarted := false } s) (finishStrikeGroup c s) :=
  ((noMore_setCellState _ c .struck (by simp) (by simp)).trans (.of_planView (planView_judgeNote ..))).trans
    (noMore_buildDeferred _ c)

/-- A start leaves an order in progress, or no more than there was. -/
def StartLeaves (s t : State) : Prop := t.engine.order.isSome = true ∨ settleMeasure t ≤ settleMeasure s

theorem endMoving_order_isSome {o : OrderProgress} (h : s.engine.order = some o) (hp : o.petal ≠ none) :
    (endMoving s).engine.order.isSome = true := by
  unfold endMoving
  rw [h]
  simp only [hp, if_false]
  split
  · rfl
  · rw [h]; rfl

theorem beginStrike_order_isSome (p q i : Nat) : (beginStrike p q i s).engine.order.isSome = true := by
  unfold beginStrike
  exact endMoving_order_isSome _ rfl (by simp)

theorem dropGroup_length_lt {l : List Order} (h : l ≠ []) : (dropGroup l).length < l.length := by
  induction l with
  | nil => exact absurd rfl h
  | cons o l ih =>
    unfold dropGroup
    split
    · simp
    · cases l with
      | nil => simp [dropGroup]
      | cons x l => have := ih (by simp); simp only [List.length_cons] at this ⊢; omega

theorem settleMeasure_of_noMore {s t : State} (h : NoMore s t) : settleMeasure t ≤ settleMeasure s := by
  have := h.measure
  unfold settleMeasure
  omega

theorem settleMeasure_skipOrder {o : Order} {rest : List Order} (k : StrikeKind) (c : Option Byte)
    (h : s.strikeQueue = o :: rest) : settleMeasure (skipOrder o k c rest s) < settleMeasure s := by
  let t := setEngine { s.engine with groupStarted := true } { s with strikeQueue := rest }
  have ht : settleMeasure t < settleMeasure s := by
    simp only [settleMeasure, t, h, List.length_cons, setEngine, toPlan]; omega
  have hm : NoMore t (raise .wheel 3 [byte o.cell, optByte (c.map (·.toNat)), byte k.code]
      (modifyCell o.cell (fun c => if k = .under then { c with underlineDropped := true }
        else { c with unprintable := true }) t)) := by
    refine .of_planView ((planView_raise ..).trans ?_)
    have e : (modifyCells o.cell (fun c => if k = .under then { c with underlineDropped := true }
        else { c with unprintable := true }) t.line.cells).map Cell.unplanned =
        t.line.cells.map Cell.unplanned := by
      unfold modifyCells
      rw [List.map_map]
      refine List.map_congr_left fun c _ => ?_
      simp only [Function.comp]
      repeat' split
      all_goals rfl
    simp only [planView, modifyCell, e]
  have hs := lt_of_le_of_lt (settleMeasure_of_noMore hm) ht
  unfold skipOrder
  simp only
  split
  · exact lt_of_le_of_lt (settleMeasure_of_noMore (noMore_finishStrikeGroup _ _)) hs
  · exact hs

theorem settleMeasure_abandonLift (x : LiftCheck) (c : Nat) (h : s.strikeQueue ≠ []) :
    settleMeasure (abandonLift x c s) < settleMeasure s := by
  let t := setEngine { s.engine with groupStarted := false, order := none }
    { s with strikeQueue := dropGroup s.strikeQueue }
  have ht : settleMeasure t < settleMeasure s := by
    have := dropGroup_length_lt h
    simp only [settleMeasure, t, setEngine, toPlan]; omega
  refine lt_of_le_of_lt (b := settleMeasure t) (settleMeasure_of_noMore ?_) ht
  exact (noMore_setCellState t c .struck (by simp) (by simp)).trans (.of_planView (planView_refuseLift ..))

/-- What the start of the order at the head can leave: an order in progress, or less than there was. -/
theorem startOrders_leaves (n : Nat) : ∀ s, StartLeaves s (startOrders n s) ∧
    (s.strikeQueue ≠ [] → (startOrders (n + 1) s).engine.order.isSome = true ∨
      settleMeasure (startOrders (n + 1) s) < settleMeasure s) := by
  have step (n : Nat) (hn : ∀ s, StartLeaves s (startOrders n s)) (s : State) (h : s.strikeQueue ≠ []) :
      (startOrders (n + 1) s).engine.order.isSome = true ∨
        settleMeasure (startOrders (n + 1) s) < settleMeasure s := by
    unfold startOrders
    split
    · contradiction
    · next o rest hq =>
      split
      · split
        · simp only
          have hs (k : StrikeKind) (c : Option Byte) := settleMeasure_skipOrder s k c hq
          split
          · exact .inr (hs _ _)
          · exact (hn _).imp id fun g => lt_of_le_of_lt g (hs _ _)
        · exact .inl (beginStrike_order_isSome ..)
      · split
        · exact .inr (settleMeasure_abandonLift s _ _ h)
        · split
          · exact .inr (settleMeasure_abandonLift s _ _ h)
          · exact .inl (beginStrike_order_isSome ..)
      · exact .inl rfl
  have all (n : Nat) : ∀ s, StartLeaves s (startOrders n s) := by
    induction n with
    | zero => intro s; exact .inr le_rfl
    | succ n ih =>
      intro s
      by_cases h : s.strikeQueue = []
      · unfold startOrders; rw [h]; exact .inr le_rfl
      · exact (step n ih s h).imp id le_of_lt
  exact fun s => ⟨all n s, step n (all n) s⟩

/-! ### Settling -/

theorem settleMeasure_takeWaiting (n : Nat) : ∀ s, settleMeasure (takeWaiting n s) ≤ settleMeasure s := by
  induction n with
  | zero => intro s; exact le_rfl
  | succ n ih =>
    intro s
    unfold takeWaiting
    split
    · exact le_rfl
    · next g rest hw =>
      split
      · next hr =>
        refine (ih _).trans ((settleMeasure_of_noMore (noMore_setCellState _ _ _ (by simp) (by simp))).trans ?_)
        simp only [queueRoom, Config.strikeQueueMax] at hr
        show 9 * toPlan s + (s.strikeQueue ++ g.orders).length +
            32 * (rest.length + if s.correction.deferred.isSome then 1 else 0) ≤
          9 * toPlan s + s.strikeQueue.length +
            32 * (s.correction.waiting.length + if s.correction.deferred.isSome then 1 else 0)
        rw [hw, List.length_append, List.length_cons]
        omega
      · exact le_rfl

theorem settleMeasure_planCells (n : Nat) : ∀ s, settleMeasure (planCells n s) ≤ settleMeasure s := by
  induction n with
  | zero => intro s; exact le_rfl
  | succ n ih =>
    intro s
    unfold planCells
    split
    · exact le_rfl
    · next h =>
      have p := planTurn_planOnce s h
      have := p.plans
      have := p.orders
      refine (ih _).trans ?_
      simp only [settleMeasure, p.correction]
      omega

theorem engine_takeWaiting (n : Nat) : ∀ s, (takeWaiting n s).engine = s.engine := by
  induction n with
  | zero => intro s; rfl
  | succ n ih =>
    intro s
    unfold takeWaiting
    split
    · rfl
    · split
      · exact (ih _).trans rfl
      · rfl

theorem engine_planCells (n : Nat) : ∀ s, (planCells n s).engine = s.engine := by
  induction n with
  | zero => intro s; rfl
  | succ n ih =>
    intro s
    unfold planCells
    split
    · rfl
    · next h => exact (ih _).trans (planTurn_planOnce s h).engine

@[simp] theorem engine_supplyQueue : (supplyQueue s).engine = s.engine := by
  unfold supplyQueue
  exact (engine_planCells ..).trans (engine_takeWaiting ..)

theorem settleMeasure_supplyQueue : settleMeasure (supplyQueue s) ≤ settleMeasure s :=
  (settleMeasure_planCells ..).trans (settleMeasure_takeWaiting ..)

theorem settleMeasure_syncRunning : settleMeasure (syncRunning s) = settleMeasure s := by
  unfold syncRunning; repeat' split
  all_goals rfl

/-- A judgement leaves no start due once the queue has been supplied, or less to do. -/
theorem judgeStart_leaves (h : startDue s = true) :
    startDue (syncRunning (supplyQueue (judgeStart s))) = false ∨
      settleMeasure (judgeStart s) < settleMeasure s := by
  have hd : s.engine.state = .running ∧ s.strikeQueue ≠ [] := by
    simp only [startDue, Bool.and_eq_true, beq_iff_eq, bne_iff_ne] at h
    exact ⟨h.1.1.1.1, h.1.2⟩
  have paused (u : State) (r : PauseReason) (hu : u.engine.state = .paused r) :
      startDue (syncRunning (supplyQueue u)) = false := by
    have e : (supplyQueue u).engine.state = .paused r := by rw [engine_supplyQueue, hu]
    unfold syncRunning
    rw [e]
    simp [startDue, hu]
  have waiting (u : State) (hs : u.engine.state = .running) (hw : u.engine.groupWait.isSome = true) :
      startDue (syncRunning (supplyQueue u)) = false := by
    have e : (supplyQueue u).engine = u.engine := engine_supplyQueue u
    unfold syncRunning
    rw [e, hs]
    simp only
    split
    · simp [startDue]
    · simp [startDue, hw]
  have ordered (u : State) (ho : u.engine.order.isSome = true) :
      startDue (syncRunning (supplyQueue u)) = false := by
    have e : (syncRunning (supplyQueue u)).engine.order = u.engine.order := by
      unfold syncRunning
      repeat' split
      all_goals simp
    have hn : u.engine.order ≠ none := by rintro g; rw [g] at ho; cases ho
    simp [startDue, e, hn]
  unfold judgeStart
  split
  · exact .inl (paused _ .paper (by unfold enterState engineReport raise; split <;> rfl))
  · split
    · exact .inl (paused _ .supply (by unfold enterState engineReport raise; split <;> rfl))
    · split
      · exact .inl (waiting _ hd.1 rfl)
      · split
        · exact .inl (waiting _ hd.1 rfl)
        · unfold startOrder
          generalize ht : setEngine { s.engine with
            groupWait := none, latchedSpeed := some s.effectiveSpeed, cycleTimer := some s.now,
            groupStarted := true } s = t
          have hq : t.strikeQueue ≠ [] := by rw [← ht]; exact hd.2
          have hm : settleMeasure t = settleMeasure s := by rw [← ht]; rfl
          obtain ⟨n, hn⟩ : ∃ n, t.strikeQueue.length = n + 1 :=
            ⟨t.strikeQueue.length - 1, by have := List.length_pos_of_ne_nil hq; omega⟩
          rw [hn, ← hm]
          exact ((startOrders_leaves n t).2 hq).imp (ordered _) id

/-- As many turns as the measure allows are enough. -/
theorem settleLoop_enough (n m : Nat) :
    ∀ s, settleMeasure s < n → settleMeasure s < m → settleLoop n s = settleLoop m s := by
  induction n generalizing m with
  | zero => intro s hn; omega
  | succ n ih =>
    intro s hn hm
    obtain ⟨m, rfl⟩ : ∃ k, m = k + 1 := ⟨m - 1, by omega⟩
    unfold settleLoop
    simp only
    split
    · next hd =>
      have hle : settleMeasure (syncRunning (supplyQueue s)) ≤ settleMeasure s :=
        (settleMeasure_syncRunning _).trans_le (settleMeasure_supplyQueue s)
      rcases judgeStart_leaves _ hd with g | g
      · have hq : 1 ≤ settleMeasure (syncRunning (supplyQueue s)) := by
          simp only [startDue, Bool.and_eq_true, bne_iff_ne] at hd
          have := List.length_pos_of_ne_nil hd.1.2
          unfold settleMeasure; omega
        obtain ⟨a, rfl⟩ : ∃ k, n = k + 1 := ⟨n - 1, by omega⟩
        obtain ⟨b, rfl⟩ : ∃ k, m = k + 1 := ⟨m - 1, by omega⟩
        unfold settleLoop
        simp only [g, Bool.false_eq_true, if_false]
      · exact ih m _ (by omega) (by omega)
    · rfl

/-- The settling of a state that is not leaving IDENTIFYING. -/
theorem settle_eq_loop (h : ¬(s.engine.state = .identifying ∧ profileMounted s.wheel)) {n : Nat}
    (hn : settleMeasure s < n) : settle s = settleLoop n s := by
  unfold settle
  rw [if_neg h]
  exact settleLoop_enough _ _ s (settleMeasure_lt_settleFuel s) hn

end Sys2Proof.Machine
end

