-- ==== Sys2Proof/Laws/Text.lean ====
section
/-!
SUPPORT. What each operation of the end of a text event leaves alone: all of it agrees before and after once
`besideText` has blanked out what such an end may change.
-/

namespace Sys2Proof.Machine

variable (s : State)

/-! ### Leaves -/

@[simp] theorem besideText_raise (k : ReportKind) (r : Nat) (d : List Byte) :
    besideText (raise k r d s) = besideText s := by
  unfold raise; split <;> rfl

@[simp] theorem besideText_raiseSpell (r : Nat) (d : List Byte) :
    besideText (raiseSpell r d s) = besideText s := besideText_raise ..

@[simp] theorem besideText_askSound (o : OneShot) : besideText (askSound o s) = besideText s := by
  unfold askSound; split <;> rfl

@[simp] theorem besideText_modifyCell (i : Nat) (f : Cell → Cell) :
    besideText (modifyCell i f s) = besideText s := rfl

@[simp] theorem besideText_setCellState (i : Nat) (x : CellState) :
    besideText (setCellState i x s) = besideText s := rfl

@[simp] theorem besideText_modifyWord (i : Nat) (f : Word → Word) :
    besideText (modifyWord i f s) = besideText s := rfl

@[simp] theorem besideText_withdrawUser (u : User) : besideText (withdrawUser u s) = besideText s := rfl

@[simp] theorem besideText_askMemory (u : User) (a : Access) :
    besideText (askMemory u a s) = besideText s := by
  unfold askMemory MemoryController.ask; split <;> rfl

@[simp] theorem besideText_abandonLookup : besideText (abandonLookup s) = besideText s := rfl

@[simp] theorem besideText_closeOpenWord : besideText (closeOpenWord s) = besideText s := rfl

@[simp] theorem besideText_releaseAdvance : besideText (releaseAdvance s) = besideText s := by
  unfold releaseAdvance; split <;> rfl

@[simp] theorem besideText_dropCells (g : Cell → Bool) : besideText (dropCells g s) = besideText s := by
  unfold dropCells correctWindow; simp only; split <;> rfl

@[simp] theorem besideText_setWaits (w : Waits) : besideText (setWaits w s) = besideText s := rfl

@[simp] theorem besideText_zoneEvent (c : ZoneCause) (a : Option Nat) (l x y : Nat) (b : Byte) :
    besideText (zoneEvent c a l x y b s) = besideText s := besideText_raise ..

@[simp] theorem besideText_addAtTail (o : List Order) : besideText (addAtTail o s) = besideText s := rfl

@[simp] theorem besideText_latchCooling : besideText (latchCooling s) = besideText s := rfl

@[simp] theorem besideText_engineReport : besideText (engineReport s) = besideText s := besideText_raise ..

theorem besideText_setEngine {e : Engine} {s : State}
    (h : (besideText (setEngine e s)).engine = (besideText s).engine) :
    besideText (setEngine e s) = besideText s := by
  unfold besideText setEngine at *; simp only at h ⊢; rw [h]

@[simp] theorem besideText_enterState (x : EngineState) : besideText (enterState x s) = besideText s := by
  unfold enterState; rw [besideText_engineReport]; rfl

/-! ### Words -/

@[simp] theorem besideText_classify (id : Nat) : besideText (classify id s) = besideText s := by
  unfold classify
  split
  · rfl
  · simp only
    split
    · rfl
    · split
      · rfl
      · rw [besideText_raiseSpell, besideText_modifyWord]
      · rfl
      · rfl

@[simp] theorem besideText_completeOpenWord : besideText (completeOpenWord s) = besideText s := by
  unfold completeOpenWord; split <;> simp

@[simp] theorem besideText_removeWordRecord (id : Nat) :
    besideText (removeWordRecord id s) = besideText s := by
  unfold removeWordRecord; simp only; split <;> split <;> rfl

@[simp] theorem besideText_reopenWord (id : Nat) : besideText (reopenWord id s) = besideText s := by
  unfold reopenWord; simp only; split <;> rfl

@[simp] theorem besideText_wordLoses (b : Bool) (id : Nat) : besideText (wordLoses b id s) = besideText s := by
  unfold wordLoses
  split
  · rfl
  · split
    · simp
    · simp only
      split
      · simp
      · split
        · exact (besideText_reopenWord _ id).trans (besideText_modifyWord ..)
        · simp

theorem besideText_foldl {α : Type} (f : State → α → State) (h : ∀ s a, besideText (f s a) = besideText s)
    (l : List α) : ∀ s, besideText (l.foldl f s) = besideText s := by
  induction l with
  | nil => intro s; rfl
  | cons a l ih => intro s; exact (ih (f s a)).trans (h s a)

/-- A run that loses all its cells is over; a run that loses some is shorter; nothing else changes. -/
theorem shortenRun_cases (gone : List Nat) :
    (∃ run, s.spelling.openWord = .unlisted run ∧ (∀ c ∈ run, c ∈ gone) ∧ shortenRun gone s = closeOpenWord s) ∨
    (∃ run, s.spelling.openWord = .unlisted run ∧ (∃ c ∈ run, c ∉ gone) ∧
      shortenRun gone s = { s with spelling := { s.spelling with
        openWord := .unlisted (run.filter fun c => !gone.contains c) } }) ∨
    ((∀ run, s.spelling.openWord ≠ .unlisted run) ∧ shortenRun gone s = s) := by
  cases ho : s.spelling.openWord with
  | none => simp [shortenRun, ho]
  | word id => simp [shortenRun, ho]
  | unlisted run =>
    by_cases h : ∀ c ∈ run, c ∈ gone
    · have e : run.filter (fun c => !gone.contains c) = [] := by simpa using h
      exact .inl ⟨run, rfl, h, by simp only [shortenRun, ho, e]⟩
    · refine .inr (.inl ⟨run, rfl, by simpa using h, ?_⟩)
      cases e : run.filter (fun c => !gone.contains c) with
      | nil => exact absurd (by simpa using e) h
      | cons a l => simp only [shortenRun, ho, e]

@[simp] theorem besideText_shortenRun (gone : List Nat) : besideText (shortenRun gone s) = besideText s := by
  unfold shortenRun
  split
  · split <;> rfl
  · rfl
  · rfl

@[simp] theorem besideText_spellRemoved (b : Bool) (l : List Cell) :
    besideText (spellRemoved b l s) = besideText s := by
  unfold spellRemoved
  exact (besideText_foldl _ (fun s id => besideText_wordLoses s b id) _ _).trans
    (besideText_shortenRun _ _)

@[simp] theorem besideText_removeCells (b : Bool) (g : Cell → Bool) :
    besideText (removeCells b g s) = besideText s := by
  unfold removeCells; simp

/-! ### Lookups -/

@[simp] theorem besideText_applyResult (g : Bool) : besideText (applyResult g s) = besideText s := by
  unfold applyResult
  split
  · rfl
  · simp only
    split
    · rfl
    · split
      · rfl
      · rw [besideText_releaseAdvance]
        split
        · rfl
        · simp; rfl

@[simp] theorem besideText_searchUserWords (k : Nat) : besideText (searchUserWords k s) = besideText s := by
  unfold searchUserWords
  split
  · rfl
  · split
    · simp
    · split
      · simp
      · rw [besideText_askMemory]; rfl

@[simp] theorem besideText_askDictionary (l : Lookup) (o : Nat) :
    besideText (askDictionary l o s) = besideText s := by
  unfold askDictionary; simp only; split
  · rw [besideText_askMemory]; rfl
  · rw [besideText_searchUserWords]; rfl

@[simp] theorem besideText_beginLookupOnce : besideText (beginLookupOnce s) = besideText s := by
  unfold beginLookupOnce
  split
  · split
    · rfl
    · simp; rfl
  · rfl

@[simp] theorem besideText_beginLookups (n : Nat) : ∀ s, besideText (beginLookups n s) = besideText s := by
  induction n with
  | zero => intro s; rfl
  | succ n ih => intro s; exact (ih _).trans (besideText_beginLookupOnce s)

@[simp] theorem besideText_beginLookup : besideText (beginLookup s) = besideText s :=
  besideText_beginLookups ..

/-! ### The head item -/

@[simp] theorem besideText_noteHold (c : Byte) : besideText (noteHold c s) = besideText s := by
  unfold noteHold
  split
  · split
    · rfl
    · rw [besideText_zoneEvent]; rfl
  · rfl

@[simp] theorem besideText_judgeHead : besideText (judgeHead s) = besideText s := by
  unfold judgeHead; split <;> simp

/-! ### The arbiter -/

@[simp] theorem besideText_endOperation (u : User) : besideText (endOperation u s) = besideText s := by
  unfold endOperation
  split
  · rfl
  · split <;> rfl
  all_goals rfl

@[simp] theorem besideText_failWrite (n : Nat) (r : Request) :
    besideText (failWrite n r s) = besideText s := by
  unfold failWrite; simp

@[simp] theorem besideText_beginTransaction (r : Request) :
    besideText (beginTransaction r s) = besideText s := by
  unfold beginTransaction; split <;> rfl

theorem besideText_next {s : State} {r : Request} {m : MemoryController} (h : s.memory.next = some (r, m)) :
    besideText { s with memory := m } = besideText s := by
  unfold MemoryController.next at h
  split at h <;> simp at h <;> (obtain ⟨rfl, rfl⟩ := h; rfl)

@[simp] theorem besideText_grantWithin (n : Nat) : ∀ s, besideText (grantWithin n s) = besideText s := by
  induction n with
  | zero => intro s; rfl
  | succ n ih =>
    intro s
    unfold grantWithin
    split
    · split
      · rfl
      · next r m h =>
        split
        · exact (ih _).trans ((besideText_failWrite ..).trans (besideText_next h))
        · exact (besideText_beginTransaction ..).trans (besideText_next h)
    · rfl

@[simp] theorem besideText_grant : besideText (grant s) = besideText s := besideText_grantWithin ..

/-! ### The render -/

@[simp] theorem besideText_render : besideText (render s) = besideText s := by
  unfold render; split <;> rfl

/-! ### The planner -/

@[simp] theorem besideText_takeWaiting (n : Nat) : ∀ s, besideText (takeWaiting n s) = besideText s := by
  induction n with
  | zero => intro s; rfl
  | succ n ih =>
    intro s
    unfold takeWaiting
    split
    · rfl
    · split
      · exact (ih _).trans rfl
      · rfl

theorem besideText_handleGroup {b : Built} {c : Cell} {s t : State} (h : handleGroup b c s = some t) :
    besideText t = besideText s := by
  unfold handleGroup at h
  split at h
  · cases h; rfl
  · split at h
    · cases h; rfl
    · cases h

theorem besideText_planPending {before after : List Cell} {c : Cell} {s t : State}
    (h : planPending before c after s = some t) : besideText t = besideText s := by
  unfold planPending at h
  simp only at h
  repeat' split at h
  all_goals first
    | exact besideText_handleGroup h
    | (cases h; rfl)
    | cases h

theorem besideText_planOnce {s t : State} (h : planOnce s = some t) : besideText t = besideText s := by
  unfold planOnce at h
  split at h
  · cases h
  · split at h
    · cases h
    · split at h
      · cases h
      · exact besideText_planPending h

@[simp] theorem besideText_planCells (n : Nat) : ∀ s, besideText (planCells n s) = besideText s := by
  induction n with
  | zero => intro s; rfl
  | succ n ih =>
    intro s
    unfold planCells
    split
    · rfl
    · next h => exact (ih _).trans (besideText_planOnce h)

@[simp] theorem besideText_supplyQueue : besideText (supplyQueue s) = besideText s := by
  unfold supplyQueue; simp

/-! ### The engine -/

@[simp] theorem besideText_refuseLift (x : LiftCheck) (c n : Nat) :
    besideText (refuseLift x c n s) = besideText s := by
  unfold refuseLift; split <;> simp

@[simp] theorem besideText_judgeNote (c : Nat) : besideText (judgeNote c s) = besideText s := by
  unfold judgeNote
  split
  · rfl
  · split <;> simp

@[simp] theorem besideText_buildDeferred (c : Nat) : besideText (buildDeferred c s) = besideText s := by
  unfold buildDeferred
  split
  · simp only
    split
    · rfl
    · split
      · rw [besideText_removeCells]; rfl
      · split
        · split <;> rfl
        · rw [besideText_refuseLift]; rfl
  · rfl

@[simp] theorem besideText_finishStrikeGroup (c : Nat) :
    besideText (finishStrikeGroup c s) = besideText s := by
  unfold finishStrikeGroup
  rw [besideText_buildDeferred, besideText_judgeNote, besideText_setCellState]; rfl

@[simp] theorem besideText_abandonLift (x : LiftCheck) (c : Nat) :
    besideText (abandonLift x c s) = besideText s := by
  unfold abandonLift
  rw [besideText_refuseLift, besideText_setCellState]; rfl

@[simp] theorem besideText_skipOrder (o : Order) (k : StrikeKind) (c : Option Byte) (r : List Order) :
    besideText (skipOrder o k c r s) = besideText s := by
  unfold skipOrder
  simp only
  split
  · rw [besideText_finishStrikeGroup, besideText_raise, besideText_modifyCell]; rfl
  · rw [besideText_raise, besideText_modifyCell]; rfl

@[simp] theorem besideText_beginStrike (p q i : Nat) : besideText (beginStrike p q i s) = besideText s := by
  unfold beginStrike endMoving
  simp only [setEngine_engine]
  split
  · simp; rfl
  · rfl

@[simp] theorem besideText_beginReturn (p : Nat) : besideText (beginReturn p s) = besideText s := rfl

@[simp] theorem besideText_startOrders (n : Nat) : ∀ s, besideText (startOrders n s) = besideText s := by
  induction n with
  | zero => intro s; rfl
  | succ n ih =>
    intro s
    unfold startOrders
    split
    · rfl
    · split
      · split
        · simp only
          split
          · simp
          · rw [ih]; simp
        · simp
      · split
        · simp
        · split <;> simp
      · simp

@[simp] theorem besideText_startOrder : besideText (startOrder s) = besideText s := besideText_startOrders ..

@[simp] theorem besideText_judgeStart : besideText (judgeStart s) = besideText s := by
  unfold judgeStart
  split
  · simp
  · split
    · simp
    · split
      · rw [besideText_latchCooling]; rfl
      · split
        · rfl
        · rw [besideText_startOrder]; rfl

@[simp] theorem besideText_syncRunning : besideText (syncRunning s) = besideText s := by
  unfold syncRunning
  split
  · split <;> rfl
  · split <;> rfl
  · rfl

@[simp] theorem besideText_settleLoop (n : Nat) : ∀ s, besideText (settleLoop n s) = besideText s := by
  induction n with
  | zero => intro s; rfl
  | succ n ih =>
    intro s
    unfold settleLoop
    simp only
    split
    · rw [ih]; simp
    · simp

@[simp] theorem besideText_settle : besideText (settle s) = besideText s := by
  unfold settle
  split
  · simp only
    split
    · rw [besideText_engineReport, besideText_settleLoop]; rfl
    · rw [besideText_settleLoop]; rfl
  · simp

end Sys2Proof.Machine
end

