-- ==== Sys2Proof/Tests/Slice0.lean ====
section
/-!
SUPPORT. Tests of single commands and formulas, whose expected values are the spec's own worked values (the
comment names them); the ill-formed terms that WellFormed refuses; and, for every statement with hypotheses, a
named theorem that shows states and operands which meet them, clause by clause.
-/

namespace Sys2Proof.Tests

-- The kernel evaluates these theorems one after another: side by side they need a thread, and its stack, each.
set_option Elab.async false

open Sys2Proof Sys2Proof.Machine

/-! ### States to test on -/

/-- After reset. -/
def r : State := State.reset

def fiveBytes : List Byte := [1, 2, 3, 4, 5]

def petals : List PetalEntry := List.replicate 96 { glyph := 0x61, width := 10, impression := 3, accent := false }

def wheel : Profile := { code := 21, pitch := .twelve, spaceWidth := 8, underscore := some 77, petals := petals }

/-- An engine READY at carriage 120 with wheel 21 mounted, which carries a, e and the acute accent, a memory
found, and a key queue. -/
def ready (queue : List Byte) : State :=
  { r with
    engine := { r.engine with state := .ready, carriage := some 120, wheelPosition := some 0 }
    wheel := { r.wheel with
      mounted := 21, cache := [some wheel, none], active := some 0,
      glyphMap := [⟨0x61, [33]⟩, ⟨0x65, [34]⟩, ⟨0xB4, [60]⟩]
      composites := [{ code := 0xE9, base := 0x65, accent := 0xB4 }] }
    memory := { r.memory with state := .twoByte, sizeCode := some 1, protect := 0, detection := .none }
    spelling := { r.spelling with unit := .available, status := .valid 1024 }
    composer := { r.composer with keyQueue := queue } }

def cell (id start : Nat) (k : CellKind) (x : CellState) : Cell :=
  { id := id, kind := k, glyph := if k = .space then some 0x20 else some 0x61, start := start, advance := 10,
    bold := false, underline := false, pastMargin := false, state := x, word := none, strikes := [],
    underlineDropped := false, unprintable := false }

/-- A state with cells, a print point and a format. -/
def on (s : State) (cells : List Cell) (p : Nat) (f : Format := .default) : State :=
  { s with
    line := { s.line with cells := cells }
    composer := { s.composer with printPoint := p, format := f } }

def withEngine (f : Engine → Engine) (s : State) : State := { s with engine := f s.engine }

def withMemory (f : MemoryController → MemoryController) (s : State) : State := { s with memory := f s.memory }

/-- A sensor input. -/
def withInput (i : Sensor) (state raw : Switch) (timer : Option Nat) (s : State) : State :=
  { s with sensors :=
      s.sensors.set i { debounced := state, raw := raw, timer := timer, selection := .both } }

/-- A bell that plays, and a queue behind it. -/
def sounding (queue : List OneShot) (s : State) : State :=
  { s with sounder := { s.sounder with playing := some { shot := .bell, ends := 3000 }, queue := queue } }

/-- A transaction in hand. -/
def inHand (u : User) (a : Access) (live : Bool) (busyUntil : Option Nat) (s : State) : State :=
  withMemory (fun m =>
    { m with current := some { request := { user := u, access := a }, live := live, busyUntil := busyUntil } }) s

def strikeOf (cell position : Nat) (last : Bool) : Order :=
  { cell := cell, position := position, last := last, work := .strike .main (some 0x61) [33] (some 3) }

/-- An order in progress. -/
def progress (x : OrderPhase) (carriage wheel phaseEnd : Option Nat) : OrderProgress :=
  { phase := x, petal := some 33, impression := 3, carriage := carriage, wheel := wheel, platen := false,
    phaseEnd := phaseEnd, drivePulse := 48, brakePulse := 32, driveStart := 1000 }

/-- A group in progress at cell 0, its order in a phase. -/
def striking (x : OrderPhase) (carriage wheel phaseEnd : Option Nat) : State :=
  withEngine (fun e => { e with
      state := .running, groupStarted := true, latchedSpeed := some 3,
      order := some (progress x carriage wheel phaseEnd) })
    { on (ready []) [cell 0 120 .glyph .ordered] 130 with strikeQueue := [strikeOf 0 120 true], now := 1000 }

/-- What a command leaves, if it answers a next state. -/
def after (c : Instr) (s : State) : State :=
  match exec c s with
  | .next t => t
  | _ => s

def mapped {α : Type} (f : State → α) (c : Instr) (s : State) : Option α :=
  match exec c s with
  | .next t => some (f t)
  | _ => none

/-! ### WellFormed refuses -/

theorem test_wellFormed_refuses_a_long_body : (Instr.type 0 (List.replicate 57 0x61)).wellFormed = false := by
  decide

theorem test_wellFormed_refuses_a_bad_kind_as_unknown : (Instr.unknownKind 0x7D 0 []).wellFormed = false := by
  decide

theorem test_wellFormed_refuses_a_request_as_unknown : (Instr.unknownKind 0x01 0 []).wellFormed = false := by
  decide

theorem test_wellFormed_refuses_a_request_as_bad_kind : (Instr.nakBadKind 0x01 0).wellFormed = false := by decide

theorem test_wellFormed_refuses_a_good_length : (Instr.nakBadLength 56).wellFormed = false := by decide

theorem test_wellFormed_refuses_a_reading_above_40_volts : (Instr.supplyMeasurement 401).wellFormed = false := by
  decide

theorem test_wellFormed_takes_what_fits : (Instr.type 0 (List.replicate 56 0x61)).wellFormed = true ∧
    (Instr.unknownKind 0x07 0 []).wellFormed = true ∧ (Instr.nakBadKind 0x7D 0).wellFormed = true ∧
    (Instr.nakBadLength 57).wellFormed = true ∧ (Instr.supplyMeasurement 400).wellFormed = true := by
  decide

/-- No row of the table gives bits. -/
theorem test_no_word_spells_a_command : decodeTableWord 8 0xA5 = none ∧ r.withFetchWord 8 0xA5 = r := by decide +kernel

/-! ### Worked values of the spec -/

/-- R129's table: cat, teh, Öl and it's, and their buckets among 1,024. -/
theorem test_hash_of_the_worked_words :
    ([[0x63, 0x61, 0x74], [0x74, 0x65, 0x68], [0xD6, 0x6C], [0x69, 0x74, 0x27, 0x73]].map fun w : List Byte =>
        (wordHash (w.map letterValue), wordHash (w.map letterValue) % 1024)) =
      [(4164, 68), (27573, 949), (1862, 838), (25523, 947)] := by
  decide

/-- R42's table. -/
theorem test_travel_of_the_worked_turns :
    choosePetal 90 [3, 80] = some 3 ∧ turnOf 90 3 = .forward 9 ∧ choosePetal 0 [10, 86] = some 10 ∧
      turnOf 0 10 = .forward 10 ∧ turnOf 20 68 = .forward 48 ∧ turnOf 20 69 = .backward 47 ∧
      turnOf 40 40 = .still := by
  decide

/-- R38's table. -/
theorem test_offsets_of_the_worked_underlines :
    [underOffsets 10 10, underOffsets 15 8, underOffsets 25 10, underOffsets 18 4, underOffsets 36 12,
        underOffsets 64 10] =
      [[0], [0, 7], [0, 7, 15], [0, 3, 7, 10, 14], [0, 12, 24], [0, 10, 21, 32, 43, 54]] := by
  decide

/-- R85's extremes (values 16 and 92) and R94's group A: D = 92, B = 28. -/
theorem test_pulses_of_the_worked_firings :
    drivePulse 1 false (-2) .nominal = 20 ∧ drivePulse 5 true 2 .nominal = 92 ∧ brakePulse 4 92 = 28 := by
  decide

/-- R93's example. -/
theorem test_heat_of_the_worked_decay : decayed 1680 = 1575 ∧ decayed 1600 = 1500 := by decide

/-- R176's example: the check bytes of the TYPE request, of its reply and of the NAK. -/
theorem test_check_bytes_of_the_worked_frames :
    frameCheck 0x01 7 [0x68, 0x69] = 0x24 ∧ frameCheck 0x81 7 [0, 94] = 0x17 ∧
      frameCheck 0xFE 7 [0x01, 0x01] = 0xF6 := by
  decide

/-- R176's example: the reply waits behind the ENGINE report of the reset, and two items are queued. -/
theorem test_type_of_the_worked_frame :
    mapped (fun t => (t.composer.keyQueue, t.link.replies)) (.type 7 [0x68, 0x69]) r =
      some ([0x68, 0x69], [{ kind := 0x81, tag := 7, body := [0, 94] }]) := by
  decide +kernel

theorem test_nak_of_the_worked_frame :
    mapped (fun t => t.link.replies) (.nakBadCheck 0x01 7) r =
      some [{ kind := 0xFE, tag := 7, body := [0x01, 0x01] }] := by
  decide +kernel

/-- R182, R183: the RESET pin pressed and released leaves the state after reset, but for the counter of free
values. -/
theorem test_reset_pin_and_release :
    mapped (fun t => { t with fresh := 0 }) .resetPinRelease (after .resetPin r) = some r := by
  decide +kernel

/-- R119's example: position 1,001 with span 8. -/
theorem test_watch_is_aligned_down :
    mapped (fun t => (t.zone.watch2.position, t.link.replies)) (.setWatch 0 [2, 0x03, 0xE9, 8, 1, 1]) r =
      some (1000, [{ kind := 0x92, tag := 0, body := [0, 0x03, 0xE8, 8, 1, 1] }]) := by
  decide +kernel

/-- R173: 4,050 Hz is clamped and 1,599 Hz rounded down to a multiple of 100; volume 9 is clamped to 3. -/
theorem test_set_sound_clamps :
    mapped (fun t => (t.sounder.volume, t.sounder.frequency)) (.setSound 0 [9, 9, 0, 0, 0x0F, 0xD2]) r =
        some (3, 4000) ∧
      mapped (fun t => t.sounder.frequency) (.setSound 0 [8, 0, 0, 0, 0x06, 0x3F]) r = some 1500 := by
  decide +kernel

/-- R89: a reading of 18.0 V in HIGH makes the band CRITICAL; 25.8 V in HIGH leaves it. -/
theorem test_bands_of_the_worked_readings :
    mapped (fun t => t.impression.band) (.supplyMeasurement 180)
        { r with impression := { r.impression with band := .high, firstPending := false } } = some .critical ∧
      mapped (fun t => t.impression.band) (.supplyMeasurement 258)
        { r with impression := { r.impression with band := .high, firstPending := false } } = some .high := by
  decide +kernel

def fiveCells : List Cell :=
  (List.range 5).map (fun k => cell k (20 + 10 * k) .glyph .struck) ++
    (List.range 5).map (fun k => cell (5 + k) (120 + 10 * k) .glyph .held)

/-- R144's example, with the paper line's LINE-END cell at index 4. -/
theorem test_cursor_of_the_worked_line :
    let cells := fiveCells.set 4 { cell 4 110 .lineEnd .ordered with advance := 0 }
    cursorIndex cells 170 = 10 ∧ cursorIndex cells 140 = 7 ∧ cursorIndex cells 145 = 8 := by
  decide +kernel

/-- R27, R6: an a at pitch 12 takes 10 increments from the left margin. -/
theorem test_glyph_item_places_a_cell :
    mapped (fun t => (t.composer.printPoint, t.line.cells.map fun c => (c.id, c.kind, c.start, c.advance)))
        .glyphItem (ready [0x61]) = some (130, [(0, .glyph, 120, 10)]) := by
  decide +kernel

/-- R5: é is composed of e and the acute accent. -/
theorem test_glyph_item_composes :
    mapped (fun t => t.line.cells.map fun c => (c.kind, c.glyph)) .glyphItem (ready [0xE9]) =
      some [(.composite, some 0xE9)] := by
  decide +kernel

/-- R5: a code that the wheel does not carry creates no cell. -/
theorem test_glyph_item_not_on_wheel :
    mapped (fun t => (t.line.cells, t.composer.keyQueue, t.sounder.playing.map (·.shot))) .glyphItem
        (ready [0x62]) = some ([], [], some .error) := by
  decide +kernel

/-- R29: a space past the right margin is cut at it. -/
theorem test_space_item_is_cut_at_the_margin :
    mapped (fun t => (t.composer.printPoint, t.line.cells.map (·.advance))) .spaceItem
        (on (ready [0x20]) [] 1074) = some (1080, [6]) := by
  decide +kernel

/-- R28: the tab reaches the next stop. -/
theorem test_tab_item_reaches_the_stop :
    mapped (fun t => t.composer.printPoint) .tabItem
        { ready [0x09] with zone := { r.zone with tabStops := [120, 240, 360] } } = some 240 := by
  decide +kernel

/-- R18: a backspace without a cell moves by the pitch advance. -/
theorem test_backspace_item_moves_by_the_pitch :
    mapped (fun t => t.composer.printPoint) .backspaceItem (on (ready [0x08]) [] 140) = some 130 := by
  decide +kernel

/-- R71: a strike in BRAKE completes: its record, its heat, its cell STRUCK and an empty queue. -/
theorem test_brake_end_strikes :
    mapped (fun t => (t.line.cells.map (fun c => (c.state, c.strikes.map (·.petal))), t.impression.heat,
        t.strikeQueue, t.engine.state)) .brakeEnd (striking .brake none none (some 1080)) =
      some ([(.struck, [33])], 48, [], .ready) := by
  decide +kernel

/-- R71: SETTLING ends in a drive of class 3 at NOMINAL. -/
theorem test_settling_end_drives :
    mapped (fun t => t.engine.order.map fun o => (o.phase, o.drivePulse, o.brakePulse)) .settlingEnd
        (striking .settling none none (some 1020)) = some (some (.drive, 48, 32)) := by
  decide +kernel

/-- R72: a carriage jam. -/
theorem test_carriage_limit_is_a_jam :
    mapped (fun t => (t.engine.state, t.engine.order, t.strikeQueue.length)) .carriageMoveLimit
        (striking .moving (some 4000) none none) = some (.faulted .jamCarriage, none, 1) := by
  decide +kernel

/-- R75: a carriage jam has the move's target in its detail; a wheel jam after the carriage has arrived has none. -/
theorem test_fault_detail_names_the_carriage_move :
    mapped (fun t => t.engine.faultDetail.bind (·.target)) .carriageMoveLimit
        (striking .moving (some 4000) none none) = some (some 120) ∧
      mapped (fun t => t.engine.faultDetail.bind (·.target)) .wheelTurnLimit
        (striking .moving none (some 2500) none) = some none := by
  decide +kernel

/-- R42: from petal 81 to petal 33 the wheel turns forward 48, from petal 80 backward 47, and once there not at all. -/
theorem test_wheel_turns_forward_up_to_48 :
    let motors (at_ : Nat) (wheel : Option Time) : Motors :=
      (mechanismOutput (withEngine (fun e => { e with wheelPosition := some at_ })
        (striking .moving (some 4000) wheel none))).motors
    motors 81 (some 2500) = .moving (some 120) (.forward 48) ∧
      motors 80 (some 2500) = .moving (some 120) (.backward 47) ∧
      motors 80 none = .moving (some 120) .still := by
  decide +kernel

/-- R166: whatever a failed last write of a save reached, the settings record keeps its old check byte. -/
theorem test_failed_save_keeps_the_check_byte (fresh : Nat) : failedReach fresh 0x00FC 4 ≤ 3 := by
  unfold failedReach
  dsimp only
  split <;> omega

/-- R59, R71, R75: the outputs in DRIVE, and after a jam. -/
theorem test_outputs_of_the_engine :
    mechanismOutput (striking .drive none none (some 1048)) =
        { motors := .held, platen := none, hammer := .driven } ∧
      mapped mechanismOutput .carriageMoveLimit (striking .moving (some 4000) none none) =
        some { motors := .off, platen := none, hammer := .inhibited } := by
  decide +kernel

/-- R61: A leading counts up. -/
theorem test_encoder_counts_up :
    mapped (fun t => t.engine.carriage) (.encoderEdge true false) (ready []) = some (some 121) := by
  decide +kernel

/-- R62: the index sets the count. -/
theorem test_index_pulse_homes :
    mapped (fun t => (t.engine.carriage, t.engine.homing)) .indexPulse
        (withEngine (fun e => { e with state := .homing, homing := some .carriageSearch, carriage := none }) r) =
      some (some 0, some .carriageReturn) := by
  decide +kernel

/-- R63, R75: code 0 is NO-WHEEL. -/
theorem test_wheel_code_zero_is_a_fault :
    mapped (fun t => (t.engine.state, t.wheel.active)) (.wheelCodeRead 0)
        (withEngine (fun e => { e with state := .homing, homing := some .wheelRead }) (ready [])) =
      some (.faulted .noWheel, none) := by
  decide +kernel

/-- R60: the changes to IDENTIFYING and to FAULTED raise an ENGINE event each. -/
theorem test_code_0_raises_two_engine_events :
    mapped (fun t => t.link.reports.map fun e => (e.kind, e.occurrences, e.reason)) (.wheelCodeRead 0)
        (withEngine (fun e => { e with state := .homing, homing := some .wheelRead })
          { ready [] with link := { r.link with reports := [], transmit := some ⟨⟨0xFD, 1, []⟩, 9⟩ } }) =
      some [(.engine, 2, 6)] := by
  decide +kernel

/-- R54, R120: a composite entry added makes the item at the head one that a HOLD watch holds. -/
theorem test_set_composite_raises_watch_hold :
    mapped (fun t => t.link.reports.map fun e => (e.kind, e.reason)) (.setComposite 1 [0xEA, 0x65, 0xB4])
        { ready [0xEA] with
          zone := { r.zone with watch1 := { position := 120, span := 8, kind := .hold, enabled := true } }
          link := { r.link with reports := [], transmit := some ⟨⟨0xFD, 1, []⟩, 9⟩ } } =
      some [(.zone, 4)] := by
  decide +kernel

/-- R145: two cells that leave the list before the window bring its start down by two. -/
theorem test_removal_keeps_the_window_to_its_cell :
    ( let s := on r [cell 0 120 .glyph .struck, cell 1 130 .glyph .struck, cell 2 140 .glyph .struck] 150
      (removeCells false (fun c => c.id < 2) { s with display := { s.display with windowStart := 2 } }).display.windowStart
        = 0) := by
  decide +kernel

/-- R101: the deferred lift is built at the head in the event that ends the strikes of its cell. -/
theorem test_brake_end_builds_the_deferred_lift :
    mapped (fun t => (t.correction.deferred, t.strikeQueue.map fun o => (o.cell, o.work)))
        .brakeEnd { striking .brake none none (some 1080) with correction := { deferred := some 0, waiting := [] } } =
      some (none, [(0, .lift .main 33 21 3)]) := by
  decide +kernel

/-- R77: the cover opens on an idle engine. -/
theorem test_cover_opens :
    mapped (fun t => (t.engine.state, t.sensors.cover.debounced)) (.debounceExpiry .cover)
        (withInput .cover .closed .opened (some 80) (ready [])) =
      some (.paused .cover, .opened) := by
  decide +kernel

/-- R81: units beyond 96 are clamped. -/
theorem test_feed_clamps :
    mapped (fun t => t.engine.feed) (.feed 0 [0x7F]) (ready []) = some (some 96) := by decide +kernel

/-- R172: at most four one-shots wait. -/
theorem test_sound_queue_is_full :
    mapped (fun t => (t.sounder.queue.length, t.link.replies)) (.sound 0 [3])
        (sounding [.error, .doubleBeep, .click, .beep] r) =
      some (4, [{ kind := 0x96, tag := 0, body := [0, 2, 3] }]) := by
  decide +kernel

/-- R172: a DOUBLE-BEEP is 1,000 Hz for 80 ms, silent for 60 ms, 1,000 Hz for 80 ms. -/
theorem test_double_beep_is_silent_in_its_middle :
    let x : Sounder := { r.sounder with playing := some { shot := .doubleBeep, ends := 2200 } }
    [799, 800, 1399, 1400].map (fun t => (x.output t).map (·.frequency)) = [some 1000, none, none, some 1000] := by
  decide +kernel

/-- R173: with the volume 0 already, a SET-SOUND that gives no volume cuts nothing; one that changes it to 0 does. -/
theorem test_sound_is_cut_by_the_change_to_volume_0 :
    let s := sounding [.beep] r
    mapped (fun t => t.sounder.queue.length) (.setSound 0 [2, 0, 0, 0, 0, 0])
        { s with sounder := { s.sounder with volume := 0 } } = some 1 ∧
      mapped (fun t => t.sounder.playing) (.setSound 0 [1, 0, 0, 0, 0, 0]) s = some none := by
  decide +kernel

/-- R178: a DICT-WRITE of another length is BAD-VALUE, with no download open too. -/
theorem test_dict_write_of_another_length :
    mapped (fun t => t.link.replies) (.dictWrite 5 (List.replicate 34 0)) r =
      some [{ kind := 0xE3, tag := 5, body := [byte Status.badValue.code] }] := by
  decide +kernel

/-- R182: the BAD-VALUE reply of a RESET request of another length resets nothing; the accepted one's reply goes. -/
theorem test_reset_waits_for_its_own_reply :
    let link : Link := { r.link with
      resetPending := true, replies := [{ kind := 0xFF, tag := 2, body := [0] }]
      transmit := some { frame := { kind := 0xFF, tag := 1, body := [byte Status.badValue.code] }, ends := 62 } }
    mapped (fun t => (t.link.resetPending, t.link.transmit.map (·.frame.tag))) .frameSent { r with link := link } =
      some (true, some 2) := by
  decide +kernel

/-- R124: a run without a cell is over, and the next letter begins a word. -/
theorem test_letter_after_an_emptied_run_begins_a_word :
    let s := on (ready []) [cell 1 130 .glyph .held] 140
    let t : State := { s with spelling := { s.spelling with openWord := .unlisted [0], pendingApostrophe := some 1 } }
    (spellCell 1 (spellRemoved true [cell 0 120 .glyph .held] t)).spelling.words.map (·.first) = [1] := by
  decide +kernel

/-- R158: a write that ends stands in the memory. -/
theorem test_write_ends_in_the_memory :
    mapped (fun t => (t.chip.cells, t.memory.current)) .transactionEnd
        (inHand .protect (.write 0x0040 [1, 0xFF, 3, 4]) false (some 200) (ready [])) =
      some ([(0x40, 1), (0x42, 3), (0x43, 4)], none) := by
  decide +kernel

/-- R166: what SAVE-SETTINGS writes is a valid record. -/
theorem test_default_settings_read_back :
    Settings.default.image.length = 192 ∧ Settings.ofImage Settings.default.image = some Settings.default := by
  decide +kernel

end Sys2Proof.Tests
end

