-- ==== Sys2Proof/Tests/Witnesses.lean ====
section
/-!
SUPPORT. For every statement of Certificates/Slice0/Obligations.lean that has hypotheses: states and operands that
meet them, at the bounds of their ranges, one conjunct or more for each clause.
-/

namespace Sys2Proof.Tests

-- The kernel evaluates these theorems one after another: side by side they need a thread, and its stack, each.
set_option Elab.async false

open Sys2Proof Sys2Proof.Machine

/-! ### The step, reset and the link -/

theorem witness_step_runs_the_front_command_or_idles :
    ({ r with pending := [.badByte] } : State).pending = .badByte :: [] ∧ r.pending = [] ∧
      dueCommand r = none ∧ dueCommand { r with now := 146 } = some .frameSent := by
  decide +kernel

def pastEnd : State := inHand .lookup (.read 0x7FFD) true none (ready [])

theorem witness_only_a_transaction_past_the_end_of_memory_stops :
    (pastEnd.memory.detection = .none ∧ transactionWithin pastEnd = false) ∧
      transactionWithin (inHand .lookup (.read 0x7FFC) true none (ready [])) = true ∧
      transactionWithin r = true := by
  decide +kernel

def low : State := after .resetPin r

/-- A RESET request accepted, and a reply of its kind being sent with the reply `rs` behind it. -/
def sendingReset (status : Byte) (rs : List OutFrame) : State :=
  { r with link := { r.link with
      resetPending := true, replies := rs
      transmit := some { frame := { kind := 0xFF, tag := 1, body := [status] }, ends := 62 } } }

def resetting : State := sendingReset 0 []

theorem witness_reset_pin_and_reset_request_reset_every_block :
    (r.pins.resetLow = false ∧ low.pins.resetLow = true ∧ low.link.transmit = none ∧ low.link.replies = [] ∧
        low.link.resetPending = false ∧ low.link.reports.length = 2) ∧
      (hears r ∧ resetting.link.transmit.map (fun x => (x.frame.kind, x.frame.body)) = some (0xFF, [0]) ∧
        resetting.link.resetPending = true ∧ resetting.pins.resetLow = false) := by
  unfold hears
  decide +kernel

def replying : State := after (.getStatus 1 []) r

def silent : State := { r with link := { r.link with transmit := none, reports := [] } }

theorem witness_active_profile_or_none : activeProfile (ready []).wheel = some wheel ∧ activeProfile r.wheel = none := by
  decide +kernel

/-- The reply in the second line is the BAD-VALUE of a RESET request of another length. -/
theorem witness_line_sends_replies_before_reports :
    (replying.link.transmit ≠ none ∧ replying.pins.resetLow = false ∧ replying.link.replies.length = 1 ∧
        replying.link.resetPending = false) ∧
      ( let s := sendingReset 7 [{ kind := 0xFF, tag := 2, body := [0] }]
        s.link.transmit.map (·.frame.body) = some [7] ∧ ([7] : List Byte) ≠ [0] ∧ s.link.replies ≠ [] ∧
          s.pins.resetLow = false) ∧
      (r.link.transmit ≠ none ∧ r.link.replies = [] ∧ r.link.resetPending = false ∧ r.link.reports.length = 1) ∧
      ((after .frameSent r).link.transmit ≠ none ∧ (after .frameSent r).link.reports = []) ∧
      (silent.pins.resetLow = false ∧ silent.link.transmit = none ∧ silent.link.replies = []) ∧
      low.link.transmit = none ∧ ({ silent.link with replies := [⟨0x81, 0, [0]⟩] } : Link).replies ≠ [] := by
  decide +kernel

theorem witness_report_queue_coalesces_by_kind :
    ({ r.link with mask := 0 } : Link).mask.getLsbD ReportKind.engine.index = false ∧
      (r.link.mask.getLsbD ReportKind.key.index = true ∧ ∀ e ∈ r.link.reports, e.kind ≠ .key) ∧
      (r.link.mask.getLsbD ReportKind.spell.index = true ∧ r.link.reports.map (·.kind) = [.spell]) := by
  decide +kernel

def full : State := { r with link := { r.link with replies := List.replicate 8 ⟨0x81, 0, [0]⟩ } }

theorem witness_framer_takes_bytes_and_hands_on_frames :
    (r.link.framer = .hunting ∧ r.pins.resetLow = false ∧ (List.replicate 56 (0x61 : Byte)).length ≤ 56) ∧
      ((Instr.type 7 [0x68, 0x69]).frame = some (0x01, 7, [0x68, 0x69])) ∧
      (kindIsBad 0x7D = true ∧ kindIsBad 0xFF = true) ∧ (kindIsBad 0x07 = false ∧ kindIsRequest 0x07 = false) ∧
      ((0x25 : Byte) ≠ frameCheck 0x01 7 [0x68, 0x69]) ∧
      [FramerState.length, .kind, .tag, .body].Nodup := by
  decide +kernel

theorem witness_frames_are_discarded_judged_or_draw_a_nak :
    (¬hears full ∧ ¬hears low ∧ ¬hears resetting ∧ low.pins.resetLow = true ∧
        ((Instr.type 0 [0x61]).frame).isSome = true) ∧
      ((Instr.home 1 [0]).frame = some (0x05, 1, [0]) ∧ fixedLength 0x05 = some 0 ∧ hears r) ∧
      ( let body : List Byte := List.replicate 34 0
        (Instr.dictWrite 1 body).frame = some (0x63, 1, body) ∧ fixedLength 0x63 = some 35 ∧ body.length ≠ 35) ∧
      ((0x7D : Byte) = 0x7D ∧ 0x80 ≤ (0x80 : Byte).toNat ∧ 57 ≤ (57 : Byte).toNat ∧ (56 : Byte).toNat ≤ 56) ∧
      (after (.byteReceived 0xA5) r).link.framer ≠ .hunting ∧ (after (.byteReceived 0xA5) r).link.gap = some 200 ∧
      r.link.framer = .hunting ∧ r.link.gap = none ∧ kindIsBad 0x00 = false ∧ kindIsRequest 0x00 = false := by
  unfold hears
  decide +kernel

/-! ### The text path -/

theorem witness_head_item_waits_as_listed :
    ((ready [0x61]).composer.keyQueue = 0x61 :: []) ∧
      (waitsFor { r with composer := { r.composer with keyQueue := [0x61] } } 0x61).any = true ∧
      (waitsFor (ready [0x61]) 0x61).watchHold = false ∧
      ( let held : State := { ready [0x61] with zone := { r.zone with
          watch1 := { position := 128, span := 2, kind := .hold, enabled := true } } }
        (waitsFor held 0x61).watchHold = true ∧ held.zone.holdNoted = false) := by
  decide +kernel

theorem witness_type_request_takes_all_items_or_none :
    hears r ∧ (List.replicate 49 (0x61 : Byte)).length = 49 ∧
      ( let full : State := { r with composer := { r.composer with keyQueue := List.replicate 48 0x61 } }
        hears full ∧ (List.replicate 48 (0x61 : Byte)).length ≤ 96 - full.composer.keyQueue.length) ∧
      ( let packed : State := { r with composer := { r.composer with keyQueue := List.replicate 96 0x61 } }
        hears packed ∧ 96 - packed.composer.keyQueue.length < 1) := by
  unfold hears
  decide +kernel

/-- A word of two letters, cells 0 and 1. -/
def pairWord : Word :=
  { id := 3, first := 0, last := 1, count := 2, hash := 0, state := .opened, skip := none, generation := 0,
    holdMark := false, accepted := false }

/-- A state with the words given, and cells. -/
def spelled (ws : List Word) (o : OpenWord) (cells : List Cell) : State :=
  let s := on (ready []) cells 150
  { s with spelling := { s.spelling with words := ws, openWord := o } }

def letter (id : Nat) (word : Option Nat) : Cell := { cell id (120 + 10 * id) .glyph .held with word := word }

def twoLetters : List Cell := [letter 0 (some 3), letter 1 (some 3)]

/-- The mark stands at a free letter, and behind a word that is held unknown. -/
def markedAt (mark : Nat) : State :=
  let s := spelled [{ pairWord with state := .unknown, holdMark := true }] .none (letter 2 none :: twoLetters)
  { s with line := { s.line with releaseMark := some mark } }

def twoLines : List Cell :=
  [cell 0 120 .glyph .struck, { cell 1 130 .lineEnd .pending with advance := 0 }, cell 2 120 .glyph .held]

theorem witness_release_request_releases_the_carriage_line :
    (hears r ∧ r.line.cells = []) ∧
      ( let s := on r [cell 0 120 .glyph .held] 130
        hears s ∧ s.line.cells = [] ++ [cell 0 120 .glyph .held] ∧ ∀ d ∈ s.line.cells, d.kind ≠ .lineEnd) ∧
      ( let s := on r twoLines 130
        hears s ∧ s.line.cells = [cell 0 120 .glyph .struck] ++
          { cell 1 130 .lineEnd .pending with advance := 0 } :: [cell 2 120 .glyph .held] ∧
          (s.line.cells.map (·.id)).Nodup ∧ s.line.releaseMark = none) := by
  unfold hears
  decide +kernel

/-- A group in progress at cell 0, and a group behind it. -/
def queued : State :=
  { striking .moving (some 4000) none none with
    strikeQueue := [strikeOf 0 120 true, strikeOf 1 130 true]
    line := { r.line with cells := [cell 0 120 .glyph .ordered, cell 1 130 .glyph .ordered] } }

theorem witness_release_advance_stops_at_a_closed_unit :
    ((markedAt 1).line.releaseMark = some 1 ∧ ((markedAt 1).line.cells.map (·.id)).Nodup ∧
        (markedAt 1).line.cells = [letter 2 none, letter 0 (some 3)] ++ letter 1 (some 3) :: []) ∧
      unitCloses (markedAt 1) (letter 0 (some 3)) ∧ ¬unitCloses (markedAt 2) (letter 2 none) := by
  have none_ended : ∀ (m : Nat) (e : LineRecord), (markedAt m).line.paper ≠ some e := fun _ _ h => nomatch h
  refine ⟨by decide +kernel, ⟨fun ⟨_, r, _, h, _⟩ => absurd h (none_ended 1 r), fun _ => ?_⟩, fun h => ?_⟩
  · exact ⟨3, { pairWord with state := .unknown, holdMark := true }, rfl, rfl, rfl, .inr (.inr ⟨rfl, rfl⟩)⟩
  · obtain ⟨_, _, word, _⟩ := h.2 fun ⟨_, r, _, e, _⟩ => none_ended 2 r e
    exact nomatch word

theorem witness_stop_request_gives_up_what_has_not_started :
    (hears queued ∧ queued.strikeQueue = [strikeOf 0 120 true] ++ [strikeOf 1 130 true] ∧
        queued.engine.groupStarted = true ∧ (strikeOf 0 120 true).last = true) ∧
      (hears r ∧ r.strikeQueue = [] ++ [] ∧ r.engine.groupStarted = false) := by
  unfold hears
  decide +kernel

def paperPause : State := withEngine (fun e => { e with state := .paused .paper }) (ready [])

def heldItem : State :=
  { ready [0x61] with zone := { r.zone with
      watch1 := { position := 120, span := 8, kind := .hold, enabled := true } } }

theorem witness_resume_request_ends_a_paper_pause_or_a_hold :
    (hears r ∧ r.engine.state ≠ .paused .paper ∧ r.composer.keyQueue = []) ∧
      (hears paperPause ∧ paperPause.engine.state = .paused .paper ∧
        paperPause.sensors.paper.debounced = .closed) ∧
      (hears heldItem ∧ heldItem.composer.keyQueue = 0x61 :: [] ∧ (waitsFor heldItem 0x61).watchHold = true ∧
        (waitsFor heldItem 0x61).backpressure = false ∧ (waitsFor heldItem 0x61).secondLineEnd = false) := by
  unfold hears
  decide +kernel

theorem witness_home_and_feed_requests_by_their_tables :
    (hears r ∧ r.engine.state = .unhomed ∧ r.sensors.cover.debounced = .closed) ∧
      (hears (ready []) ∧ (ready []).engine.state = .ready ∧ (ready []).sensors.cover.debounced = .closed ∧
        (ready []).engine.feed = none ∧
        ∀ c ∈ (ready []).line.cells, c.state ≠ .pending ∧ c.state ≠ .ordered) ∧
      (withEngine (fun e => { e with state := .homing }) r).engine.state = .homing ∧
      (after (.feed 0 [96]) (ready [])).engine.feed ≠ none ∧
      ((0x80 : Byte).toInt < -96 ∧ ¬(0xA0 : Byte).toInt < -96 ∧ 96 < (97 : Byte).toInt) := by
  unfold hears
  decide +kernel

/-- Every field present, each at a bound. -/
def formatBody : List Byte := [0x07, 0xFF, 10, 0, 120, 0x07, 0x08, 6, 3, 2, 1, 2, 0xFE, 4, 120]

theorem witness_set_format_request_is_judged_whole :
    hears r ∧ formatBody.length = 15 ∧ at16 formatBody 0 < 2048 ∧ at16 formatBody 3 + 120 ≤ at16 formatBody 5 ∧
      composingCells r.line.cells = [] ∧
      composingCells (on r [cell 0 120 .glyph .held] 130).line.cells ≠ [] ∧
      (formatBody.set 7 7).length = 15 := by
  unfold hears
  decide +kernel

/-- Two checks failing at once, each pair in its order; and the changes of the spelling mode. -/
theorem witness_set_format_request_that_fails_two_checks :
    (2048 ≤ at16 (formatBody.set 0 8) 0 ∧ at16 formatBody 0 = 2047) ∧
      ( let b := formatBody.set 2 11
        at8 b 2 ∉ [10, 12, 15, 0] ∧ (on r [cell 0 120 .glyph .held] 130).line.cells ≠ []) ∧
      (at8 formatBody 2 ≠ r.composer.format.pitch.code ∧ at8 (formatBody.set 7 7) 7 = 7) ∧
      ( let s := on r [cell 0 120 .lineEnd .held] 120
        composingCells s.line.cells = [] ∧ (∃ c ∈ s.line.cells, c.state = .held) ∧
          at8 formatBody 9 ≠ s.composer.format.mode.code ∧ at8 (formatBody.set 10 2) 10 = 2) ∧
      (r.composer.format.spelling = .flag ∧ SpellingMode.ofCode 0 = some .off ∧ SpellingMode.ofCode 2 = some .hold ∧
        at8 formatBody 11 = 2 ∧ at8 (formatBody.set 11 0) 11 = 0) := by
  decide +kernel

theorem witness_set_tabs_and_set_watch_requests :
    (hears r ∧ r.zone.tabStops.Pairwise (· < ·) ∧ [0, 1800].Pairwise (· < ·) ∧ (∀ p ∈ [0, 1800], p ≤ 1800) ∧
        ¬(∀ p ∈ [1801], p ≤ 1800) ∧ (List.range 25).length = 25 ∧ (List.range 25).Pairwise (· < ·)) ∧
      1800 - 1800 % (8 : Byte).toNat = 1800 ∧ 1801 < 65536 := by
  unfold hears
  decide +kernel

/-! ### Reports, sounder, sensors, display -/

theorem witness_one_shots_play_queue_or_drop :
    hears r ∧ 6 ≤ (6 : Byte).toNat ∧
      (r.sounder.tone = false ∧ r.sounder.volume ≠ 0 ∧ r.sounder.bellEnable = true ∧ r.sounder.playing = none) ∧
      ((sounding [.error, .click, .beep] r).sounder.playing ≠ none ∧
        (sounding [.error, .click, .beep] r).sounder.queue.length < 4) ∧
      4 ≤ (sounding [.error, .click, .beep, .bell] r).sounder.queue.length ∧
      (sounding [] r).sounder.queue = [] ∧ ({ r.sounder with tone := true } : Sounder).tone = true ∧
      ({ r.sounder with volume := 0 } : Sounder).volume = 0 ∧
      ({ r.sounder with bellEnable := false } : Sounder).bellEnable = false ∧
      (sounding [] r).sounder.playing = some { shot := .bell, ends := 0 + 3000 } ∧ 2999 < 3000 ∧
      (¬(800 ≤ 799 ∧ 799 < 1400) ∧ (800 ≤ 800 ∧ 1399 < 1400) ∧ ¬(800 ≤ 1400 ∧ 1400 < 1400) ∧ 2199 < 2200) ∧
      1 ≤ r.sounder.volume := by
  unfold hears
  decide +kernel

theorem witness_set_reports_set_sound_and_set_sensors_requests :
    (hears r ∧ 8 ≤ (8 : Byte).toNat ∧ (7 : Byte).toNat < 8 ∧
        ((15 : Byte).toNat.testBit 1 = true ∧ 2 ≤ (2 : Byte).toNat) ∧ (0 : Byte).toNat.testBit 1 = false) ∧
      (r.sounder.tone = false ∧ r.sounder.volume ≠ 0 ∧ ({ r.sounder with volume := 0 } : Sounder).volume = 0) ∧
      ((4 ≤ (4 : Byte).toNat ∧ (254 : Byte).toNat ≤ 254) ∧
        ∀ b ∈ ([0, 1, 2, 3, 255] : List Byte), ¬(4 ≤ b.toNat ∧ b.toNat ≤ 254)) := by
  unfold hears
  decide +kernel

theorem witness_inputs_and_the_cover :
    (r.sensors.cover.debounced = .closed ∧ r.sensors.cover.timer = none) ∧
      ( let s := withInput .tape .closed .opened (some 80) r
        s.sensors.tape.timer = some 80 ∧ s.sensors.tape.raw ≠ s.sensors.tape.debounced ∧
          s.sensors.tape.selection = .both) ∧
      r.engine.state = .unhomed ∧
      ((ready []).engine.state = .ready ∧ (ready []).engine.order = none) ∧
      ((striking .drive none none (some 1048)).engine.order.map (·.phase) = some .drive) ∧
      ((striking .brake none none (some 1080)).engine.order.map (·.phase) = some .brake) ∧
      (withEngine (fun e => { e with state := .paused .cover }) r).engine.state = .paused .cover := by
  decide +kernel

def anUnknownWord : Word :=
  { id := 3, first := 0, last := 0, count := 1, hash := 1, state := .unknown, skip := none, generation := 0,
    holdMark := false, accepted := false }

def withWord (w : Word) (s : State) : State := { s with spelling := { s.spelling with words := [w] } }

theorem witness_queries_answer_the_state_and_change_nothing :
    hears r ∧ r.line.cells.length < (1 : Byte).toNat ∧ (0 : Byte).toNat ≤ r.line.cells.length ∧
      (∀ w ∈ r.spelling.words, w.id ≠ (0 : Byte).toNat) ∧
      ( let s := withWord anUnknownWord (on r [cell 0 120 .glyph .held] 130)
        hears s ∧ s.spelling.words.find? (fun x => x.id == (3 : Byte).toNat) = some anUnknownWord ∧
          s.line.cells = [] ++ cell 0 120 .glyph .held :: [] ∧ anUnknownWord.first = (cell 0 120 .glyph .held).id) ∧
      96 ≤ (96 : Byte).toNat ∧ activeProfile r.wheel = none ∧ activeProfile (ready []).wheel = some wheel := by
  unfold hears
  decide +kernel

theorem witness_display_requests_and_timers :
    hears r ∧ r.display.overlay = none ∧
      ( let codes : List Byte := List.replicate 28 0xFF
        codes.length ≤ 28 ∧ ∀ c ∈ codes, (0x20 ≤ c.toNat ∧ c.toNat ≤ 0x7E) ∨ 0xA1 ≤ c.toNat) ∧
      ¬(List.replicate 29 (0x20 : Byte)).length ≤ 28 ∧
      ( let d : Display := { r.display with overlay := some { codes := [], expires := some 2550 } }
        d.overlay.bind (·.expires) = some 2550) := by
  unfold hears
  decide +kernel

theorem witness_render_shows_the_window_and_the_status :
    r.display.rendered = false ∧ ({ r.display with rendered := true } : Display).rendered = true := by
  decide +kernel

theorem witness_cursor_index_follows_the_print_point :
    let cells := fiveCells.set 4 { cell 4 110 .lineEnd .ordered with advance := 0 }
    cells = cells.take 5 ++ cells.drop 5 ∧ composingCells cells = cells.drop 5 ∧
      (∀ c ∈ cells.drop 5, c.start + c.advance ≤ 170) ∧ (∃ c ∈ cells.drop 5, 169 < c.start + c.advance) ∧
      ∀ c ∈ cells.drop 5, c.start < 161 := by
  decide +kernel

/-! ### Words, wheels, the serial memory -/

theorem witness_accept_add_and_remove_word_requests :
    (   let s := withWord anUnknownWord (ready [])
        hears s ∧ s.spelling.words.find? (fun x => x.id == (3 : Byte).toNat) = some anUnknownWord ∧
          anUnknownWord.state ≠ .opened ∧ s.spelling.unit ≠ .starting ∧
          some (wordHash (wordLetters s.line.cells 3)) ∉ s.spelling.userIndex ∧
          (wordLetters s.line.cells 3).length ≤ 24) ∧
      (hears (ready []) ∧ (ready []).spelling.userOp = none ∧ (ready []).memory.state ≠ .absent ∧
        (ready []).spelling.unit ≠ .starting ∧ (ready []).memory.protect < 3 ∧
        none ∈ (ready []).spelling.userIndex) ∧
      r.spelling.unit = .starting ∧ (List.replicate 15 (0x61 : Byte)).length ≤ 15 ∧
      ([0x61, 0x27, 0x61] : List Byte).all (fun b => isLetterCode b || b == 0x27) = true := by
  unfold hears
  decide +kernel

/-- Every case of the open word beside a new cell, every completion, and the tests of a completed word at the bounds
of its letters and of the check queue. -/
theorem witness_words_begin_join_complete_and_classify :
    (   let s := spelled [pairWord] (.word 3) (twoLetters ++ [letter 2 none])
        s.line.cells = twoLetters ++ letter 2 none :: [] ∧ (s.line.cells.map (·.id)).Nodup ∧
          twoLetters.getLast?.map (·.id) = some pairWord.last ∧ s.spelling.pendingApostrophe = none ∧
          s.spelling.words.find? (fun w => w.id == 3) = some pairWord) ∧
      ( let apostrophe : Cell := { letter 2 none with glyph := some 0x27 }
        let s := spelled [pairWord] (.word 3) (twoLetters ++ [apostrophe, letter 3 none])
        let t : State := { s with spelling := { s.spelling with pendingApostrophe := some 2 } }
        t.line.cells = (twoLetters ++ [apostrophe]) ++ letter 3 none :: [] ∧
          (twoLetters ++ [apostrophe]).getLast?.map (·.id) = some 2 ∧
          t.spelling.pendingApostrophe = some 2 ∧ apostrophe.glyph = some 0x27) ∧
      ( let s := spelled [] (.unlisted [0, 1]) [letter 0 none, letter 1 none, letter 2 none]
        s.spelling.openWord = .unlisted [0, 1] ∧ ([0, 1] : List Nat).getLast? = some 1 ∧
          s.line.cells = [letter 0 none, letter 1 none] ++ letter 2 none :: []) ∧
      ( let s := spelled (List.replicate 99 pairWord) .none [letter 0 none]
        (completeOpenWord s).spelling.words.length < 100 ∧
          100 ≤ (spelled (List.replicate 100 pairWord) .none []).spelling.words.length) ∧
      (cell 0 120 .space .held).kind ≠ .glyph ∧
      ( let s := spelled [pairWord] (.word 3) (twoLetters ++ [cell 2 140 .lineEnd .held])
        s.line.cells = twoLetters ++ cell 2 140 .lineEnd .held :: [] ∧ s.spelling.openWord = .word 3 ∧
          (∀ d ∈ twoLetters, d.kind ≠ .lineEnd) ∧ ∃ d ∈ twoLetters, d.word = some 3) ∧
      ( let s := spelled [{ pairWord with count := 24 }] .none twoLetters
        s.spelling.words.find? (fun w => w.id == 3) = some { pairWord with count := 24 } ∧
          (∃ c ∈ s.line.cells, c.id = 0) ∧ (∃ c ∈ s.line.cells, c.id = 1) ∧
          s.composer.format.spelling ≠ .off ∧ s.composer.format.mode = .direct ∧ 24 ≠ 1 ∧ 24 ≤ 24 ∧ 24 < 25 ∧
          s.spelling.unit ≠ .unavailable ∧ s.spelling.checkQueue.length < 8 ∧ s.spelling.ignoreList = []) ∧
      (   let digit : Cell := { letter 4 none with glyph := some 0x39 }
        digit :: twoLetters = [] ++ digit :: letter 0 (some 3) :: [letter 1 (some 3)] ∧ digit.kind = .glyph ∧
          (digit.glyph.getD 0).toNat ≤ 0x39) ∧
      (0x61 ≤ (0x61 : Byte).toNat ∧ (0x7A : Byte).toNat ≤ 0x7A ∧ 0xE0 ≤ (0xE0 : Byte).toNat ∧
        (0xDF : Byte).toNat ≤ 0xDF) := by
  decide +kernel

theorem witness_words_that_lose_cells_go_or_reopen :
    (   let s := spelled [pairWord] (.word 3) []
        (∀ c ∈ twoLetters, c.word = none ∨ c.word = some 3) ∧ (∃ c ∈ twoLetters, c.word = some 3) ∧
          s.spelling.words.find? (fun w => w.id == 3) = some pairWord ∧
          (s.line.cells.filter fun c => c.word == some 3) = []) ∧
      ( let s := spelled [{ pairWord with state := .unknown }] .none [letter 0 (some 3)]
        s.spelling.words.find? (fun w => w.id == 3) = some { pairWord with state := .unknown } ∧
          (s.line.cells.filter fun c => c.word == some 3).head? = some (letter 0 (some 3)) ∧
          s.spelling.openWord = .none ∧ s.line.cells.getLast?.map (·.id) = some (letter 0 (some 3)).id) ∧
      ( let s := spelled [] (.unlisted [0, 1]) [letter 0 none]
        s.spelling.openWord = .unlisted [0, 1] ∧ (∀ c ∈ [letter 1 none], c.word = none) ∧
          (∃ c ∈ ([0, 1] : List Nat), c ∉ [letter 1 none].map (·.id)) ∧
          ∀ c ∈ ([1] : List Nat), c ∈ [letter 1 none].map (·.id)) := by
  decide +kernel

theorem words_not_unlisted (ws : List Word) (cells : List Cell) (run : List Nat) :
    (spelled ws .none cells).spelling.openWord ≠ .unlisted run := fun h => nomatch h

def staging (x : StagingState) (p : List (Option PetalEntry)) : State :=
  { ready [] with wheel := { (ready []).wheel with
      directoryState := .loaded
      staging := { Staging.clear with state := x, code := 21, spaceWidth := 8, petals := p } } }

theorem witness_load_wheel_requests_stage_and_take_a_record :
    (hears r ∧ r.wheel.staging.state = .empty ∧ (63 : Byte).toNat ≤ 63 ∧ (12 : Byte).toNat ≤ 12 ∧
        (95 : Byte).toNat ≤ 95) ∧
      ( let s := staging .opened (List.replicate 96 none)
        hears s ∧ s.wheel.staging.state = .opened ∧ ¬∀ p ∈ s.wheel.staging.petals, p ≠ none) ∧
      ( let s := staging .opened (petals.map some)
        hears s ∧ (∀ p ∈ s.wheel.staging.petals, p ≠ none) ∧ s.memory.state = .twoByte ∧ s.memory.protect < 2 ∧
          s.wheel.directoryState ≠ .loading ∧ some s.wheel.staging.code ∉ s.wheel.directory ∧
          s.wheel.directory[0]? = some none) ∧
      (staging .storing []).wheel.staging.state = .storing ∧ (80 : Byte).toNat + 16 ≤ 96 := by
  unfold hears
  decide +kernel

/-- The wheel of the first slot is mounted; a profile of another code goes to the second. -/
theorem witness_placing_of_a_staged_record :
    (   let w := (staging .opened (petals.map some)).wheel
        w.cache.length = 2 ∧ w.fetch = none ∧ w.staging.code = 21 ∧ w.mounted = 21) ∧
      slotFor (ready []).wheel 21 0 ∧ slotFor (ready []).wheel 63 1 := by
  refine ⟨by decide +kernel, ⟨.inl rfl, .inl ⟨⟨wheel, rfl, rfl⟩, fun h => nomatch h⟩⟩, .inr rfl, .inr ⟨?_, ?_, ?_, ?_⟩⟩
  · rintro ⟨p, h, e⟩
    cases h
    exact absurd e (by decide)
  · exact fun ⟨p, h, _⟩ => nomatch h
  · exact ⟨by decide, fun _ _ _ h => nomatch h⟩
  · exact .inl ⟨fun _ h => (nomatch h), fun _ h => h.2 wheel rfl⟩

/-- A fetch of code 63 into the second slot. -/
def fetchingInto (bytes : List Byte) : State :=
  let s := ready []
  { s with wheel := { s.wheel with fetch := some { code := 63, progress := .reading 23 1 bytes } } }

theorem witness_a_fetch_is_abandoned :
    fetchAbandoned (ready []) (ready []) ∧ ∃ t, fetchAbandoned (fetchingInto []) t ∧ t.wheel.fetch = none := by
  refine ⟨⟨fun _ => rfl, fun _ h => (nomatch h), fun _ _ _ _ h => (nomatch h)⟩, ?_⟩
  refine ⟨withdrawUser .fetch
    { fetchingInto [] with wheel := { (fetchingInto []).wheel with
        fetch := none, cache := (fetchingInto []).wheel.cache.set 1 none } }, ⟨fun h => (nomatch h), ?_, ?_⟩, rfl⟩
  · intro _ h; cases h
  · intro _ _ _ _ h; cases h; rfl

theorem witness_set_composite_request_keeps_the_table :
    hears (ready []) ∧ isGlyphCode 0x21 = true ∧ isGlyphCode 0xA1 = true ∧ isGlyphCode 0xFF = true ∧
      (∀ e ∈ (ready []).wheel.composites, e.code ≠ 0xFF) ∧ (ready []).wheel.composites.length < 32 ∧
      (ready []).wheel.composites = [] ++ { code := 0xE9, base := 0x65, accent := 0xB4 } :: [] := by
  unfold hears
  decide +kernel

theorem witness_memory_requests_are_judged_and_begin :
    (hears (ready []) ∧ (ready []).memory.state = .twoByte ∧ (ready []).memory.save = none ∧
        (ready []).memory.protect < 3 ∧ (ready []).memory.protectChange = none) ∧
      (r.memory.state = .detecting ∧ r.pins.allow = false ∧ 4 ≤ (4 : Byte).toNat ∧ (3 : Byte).toNat ≤ 3) ∧
      ((ready []).memory.dictClose = false ∧ (ready []).memory.protect = 0 ∧
        (ready []).memory.downloadOpen = false ∧ (ready []).spelling.unit = .available) ∧
      ( let s := withMemory (fun m => { m with downloadOpen := true }) (ready [])
        hears s ∧ s.memory.state ≠ .absent ∧ s.memory.downloadOpen = true ∧ s.memory.dictWrite = none ∧
          (List.replicate 32 (0 : Byte)).length = 32 ∧ 0x3000 + 0x4FE0 + 32 ≤ endOfMemory s.memory.sizeCode ∧
          ¬0x3000 + 0x4FE4 + 32 ≤ endOfMemory s.memory.sizeCode) := by
  unfold hears
  decide +kernel

def asked (u : User) (a : Access) (s : State) : State := askMemory u a s

theorem witness_arbiter_grants_the_oldest_of_the_highest_level :
    (   let s := asked .lookup (.read 0x3000) (ready [])
        s.memory.current = none ∧ s.memory.busy = false ∧ s.memory.detection = .none ∧ s.memory.level1 = [] ∧
          s.memory.level2 = [{ user := .lookup, access := .read 0x3000 }]) ∧
      (asked .fetch (.read 0x1200) r).memory.level1.length = 1 ∧
      ( let s := withMemory (fun m => { m with protect := 2 }) (asked .store (.write 0x1200 [1]) (ready []))
        s.memory.level1 = [] ∧ s.memory.level2 = [] ∧ s.memory.level3.length = 1 ∧ s.memory.protect = 2) ∧
      (asked .dictWrite (.write 0x3000 [1]) (ready [])).memory.level4.length = 1 := by
  decide +kernel

theorem witness_transactions_end_or_fail :
    (   let s := inHand .lookup (.read 0x7FFC) true none (ready [])
        s.memory.detection = .none ∧ s.memory.current ≠ none ∧ transactionWithin s = true ∧
          s.chip.cells.wf = true ∧ s.chip.width = some s.memory.state.width) ∧
      ( let s := inHand .protect (.write 0x0040 [1, 2, 3, 4]) true (some 200) (ready [])
        transactionWithin s = true ∧ s.memory.current.bind (·.busyUntil) = some 200) ∧
      (inHand .protect (.statusWrite 2) true (some 200) (ready [])).memory.current ≠ none ∧
      r.memory.busy = false ∧ (withMemory (fun m => { m with busy := true }) r).memory.busy = true := by
  decide +kernel

/-- The bytes of a slot that holds the wheel's profile. -/
def slotBytes : List Byte :=
  [21, 12, 8, 77] ++ (petals.flatMap fun e => [e.glyph, byte e.width, 3]) ++ List.replicate 28 0

theorem witness_slot_bytes_hold_a_profile :
    slotBytes.length = 320 ∧ holdsProfile slotBytes wheel ∧
      ∀ p, holdsProfile (List.replicate 320 0) p → p.code ≠ 21 := by
  refine ⟨by decide +kernel, ⟨rfl, by decide, by decide, rfl, rfl, by decide, by decide, by decide, by decide, ?_, ?_⟩, ?_⟩
  · have all : ∀ i < 96, slotBytes.getD (4 + 3 * i) 0 = 0x61 ∧ slotBytes.getD (5 + 3 * i) 0 = 10 ∧
        slotBytes.getD (6 + 3 * i) 0 = 3 := by decide +kernel
    intro i e h
    have here : i < 96 ∧ e = { glyph := 0x61, width := 10, impression := 3, accent := false } := by
      have h : petals[i]? = some e := h
      rw [petals, List.getElem?_replicate] at h
      split at h
      · exact ⟨‹_›, (Option.some.inj h).symm⟩
      · exact nomatch h
    obtain ⟨less, rfl⟩ := here
    obtain ⟨a, b, c⟩ := all i less
    simp only [a, b, c]
    decide
  · intro u h
    cases h
    exact ⟨{ glyph := 0x61, width := 10, impression := 3, accent := false }, rfl, by decide, rfl⟩
  · rintro p ⟨h, least, _⟩ e
    rw [e] at h
    exact absurd h (by decide +kernel)

/-- Each operation at the first and at the last of its reads or writes. -/
theorem witness_wheel_and_memory_operations_advance :
    (   let w := r.wheel
        w.directoryRead = 0 ∧ 0 + 1 < 24 ∧ 24 ≤ 23 + 1 ∧ w.fetch = none) ∧
      ( let s : State := { r with wheel := { r.wheel with
          directoryRead := 23, fetch := some { code := 21, progress := .waitingDirectory } } }
        s.wheel.fetch = some { code := 21, progress := .waitingDirectory } ∧ 24 ≤ s.wheel.directoryRead + 1) ∧
      ( let s := fetchingInto (slotBytes.take 316)
        s.wheel.fetch = some { code := 63, progress := .reading 23 1 (slotBytes.take 316) } ∧
          1 < s.wheel.cache.length ∧ 320 ≤ (slotBytes.take 316 ++ slotBytes.drop 316).length ∧
          ([] ++ slotBytes.take 4).length < 320) ∧
      ( let s := staging .storing (petals.map some)
        let t (n : Nat) : State := { s with wheel := { s.wheel with store := some { slot := 23, done := n } } }
        ∀ n ∈ [0, 78, 79, 80], (t n).wheel.store = some { slot := 23, done := n }) ∧
      ( let s := withMemory (fun m => { m with
          save := some { image := [], done := 46 }, protectChange := some 3
          dictWrite := some { offset := 0, data := [], done := 6 } }) (ready [])
        s.memory.save.map (·.done) = some 46 ∧ 46 + 1 < 48 ∧ 48 ≤ 47 + 1 ∧ s.memory.protectChange = some 3 ∧
          s.memory.dictWrite.map (·.done) = some 6 ∧ 6 + 1 < 8 ∧ 8 ≤ 7 + 1) ∧
      ((List.range petals.length).filter fun i => (petals[i]?).any fun e => e.glyph == 0x61) ≠ [] ∧
      ((List.range petals.length).filter fun i => (petals[i]?).any fun e => e.glyph == 0x62) = [] := by
  decide +kernel

/-- A lookup of the word of letters 1 and 2, hash 39, that has come so far. -/
def looking (p : LookupProgress) : State :=
  let s := spelled [{ pairWord with hash := 39, state := .checking }] .none twoLetters
  { s with spelling := { s.spelling with
      lookup := some { word := 3, generation := 0, letters := [1, 2], hash := 39, progress := p }
      userIndex := (List.replicate 256 none).set 255 (some 39) } }

theorem witness_lookup_advances_read_by_read :
    (r.spelling.unit ≠ .available ∧ (looking .entryLow).spelling.lookup ≠ none ∧
        (ready []).spelling.checkQueue = []) ∧
      ( let s := spelled [{ pairWord with hash := 1023, state := .queued }] .none twoLetters
        let t : State := { s with spelling := { s.spelling with checkQueue := [3] } }
        t.spelling.lookup = none ∧ t.spelling.unit = .available ∧ t.spelling.checkQueue = 3 :: [] ∧
          t.spelling.status = .valid 1024 ∧ 0x3000 + 4 + 3 * (1023 % 1024) + 4 ≤ endOfMemory t.memory.sizeCode) ∧
      ((looking .entryLow).spelling.words.find? (fun w => w.id == 3)).map (·.generation) = some 0 ∧
      (   let s := looking (.entryHigh [0, 0x10, 0, 0])
        s.spelling.lookup.map (·.progress) = some (.entryHigh [0, 0x10, 0, 0]) ∧ 0x1000 < 0x1001 ∧ 0x1000 ≤ 0x1000) ∧
      (   let s := looking (.scan 0x1000 257 [])
        let entries : List (List Byte) := [[1, 3], [2]]
        s.spelling.lookup.map (·.progress) = some (.scan 0x1000 257 []) ∧
          (∀ e ∈ entries, 1 ≤ e.length ∧ e.length ≤ 24) ∧ (∀ e ∈ entries, e.map BitVec.toNat ≠ [1, 2]) ∧
          [] ++ [2, 1, 3, 1, 2, 2, 1, 2] = entries.flatMap (fun e => byte e.length :: e) ++ [2, 1, 2] ∧
          (entries.map fun e => e.length + 1).sum < min 257 256 ∧
          (([1, 2] : List Byte).take 2).map BitVec.toNat = [1, 2] ∧ (0 : Byte).toNat = 0 ∧ 24 < (25 : Byte).toNat ∧
          256 < 5 + 1 + 251 ∧ 5 + 1 + 250 ≤ 256) ∧
      (looking (.slot 255 [])).spelling.lookup.map (·.progress) = some (.slot 255 []) ∧
      slotReach [15, 1, 2, 3] = 16 ∧ slotReach [16, 1, 2, 3] = 4 ∧ slotReach [2, 1, 2, 0] = 4 := by
  decide +kernel

theorem witness_user_word_slots_match_or_not :
    slotHolds [2, 1, 2, 0] [1, 2] ∧ ¬slotHolds [1, 1, 0, 0] [1] ∧
      lowestWith (looking .entryLow).spelling.userIndex 39 255 255 ∧
      ∀ i, ¬lowestWith (looking .entryLow).spelling.userIndex 39 256 i := by
  refine ⟨⟨by decide, by decide, rfl, ?_⟩, fun h => absurd h.1 (by decide), ⟨by decide, rfl, fun _ a b => by omega⟩, ?_⟩
  · intro i v h
    match i, h with
    | 0, h => cases h; decide
    | 1, h => cases h; decide
  · rintro i ⟨far, h, _⟩
    have most : i < (looking .entryLow).spelling.userIndex.length := by
      rcases Nat.lt_or_ge i (looking .entryLow).spelling.userIndex.length with l | g
      · exact l
      · rw [List.getElem?_eq_none g] at h; exact nomatch h
    exact absurd most (by rw [show (looking .entryLow).spelling.userIndex.length = 256 from by decide +kernel]; omega)

def userOperation (k : UserWordKind) (p : UserWordProgress) : State :=
  let s := ready []
  { s with spelling := { s.spelling with
      userOp := some { kind := k, letters := [1, 2], hash := 39, progress := p } } }

theorem witness_spelling_reads_and_user_word_operations_advance :
    (   let n (i : Nat) : Nat := (([0xD1, 0x5C, 0x10, 0x00] : List Byte).getD i 0).toNat
        n 0 = 0xD1 ∧ n 1 = 0x5C ∧ 1 ≤ 256 * n 2 + n 3 ∧ 256 * n 2 + n 3 ≤ 4096) ∧
      r.memory.downloadOpen = false ∧ r.spelling.unit ≠ .unavailable ∧
      ( let s (k : Nat) : State := { r with spelling := { r.spelling with startup := .index k [] } }
        (s 0).spelling.startup = .index 0 [] ∧ 0 < 255 ∧ (s 255).spelling.startup = .index 255 [] ∧
          r.spelling.unit = .starting ∧ r.spelling.status = .none) ∧
      (([] : List Byte) ++ [15, 1, 2, 3]).length < slotReach ([] ++ [15, 1, 2, 3]) ∧
      slotReach ([] ++ [2, 1, 2, 0]) ≤ ([] ++ [2, 1, 2, 0] : List Byte).length ∧
      ( let s := userOperation .add (.compare 0 [])
        s.spelling.userOp = some { kind := .add, letters := [1, 2], hash := 39, progress := .compare 0 [] } ∧
          s.spelling.userIndex = [] ++ none :: List.replicate 255 none) ∧
      (∀ n ∈ [0, 1, 2, 3], (userOperation .add (.write 255 n)).spelling.userOp.map (·.progress) =
        some (.write 255 n)) ∧
      (userOperation .remove (.write 0 0)).spelling.userOp.map (·.kind) = some .remove := by
  decide +kernel

theorem witness_detection_finds_the_width_and_the_level :
    r.memory.detection = .poll 200 ∧
      ( let c : Chip := { r.chip with cells := [(0, 0xB7), (1, 0x4E), (2, 1), (3, 2)] }
        c.width = some .two ∧ c.cells.read 0 = 0xB7 ∧ c.cells.read 1 = 0x4E ∧ c.cells.read 2 = 1 ∧
          (c.cells.read 3).toNat = 2) ∧
      [Detection.header2, .header3, .settings (List.replicate 188 0)].length = 3 := by
  decide +kernel

theorem witness_end_of_detection_starts_the_part :
    ((some Settings.default : Option Settings) = some Settings.default ∧ r.memory.state = .detecting ∧
        r.sensors.cover.debounced = .closed ∧ r.line.cells = []) ∧
      ( let s := withInput .cover .opened .opened none (withMemory (fun m => { m with state := .absent }) r)
        s.memory.state = .absent ∧ s.spelling.unit ≠ .unavailable ∧ s.sensors.cover.debounced = .opened) ∧
      ( let y : Settings :=
          { Settings.default with format := { Format.default with leftMargin := 0, spelling := .off } }
        y.format.leftMargin ≠ r.composer.format.leftMargin ∧ r.composer.format.spelling ≠ .off ∧
          y.format.spelling = .off) := by
  decide +kernel

theorem witness_settings_image_reads_back : settingsAllowed Settings.default := by
  unfold settingsAllowed watchAllowed
  decide +kernel

/-! ### Key items -/

theorem witness_glyph_item_creates_a_cell_or_is_refused :
    (   let s := ready [0x61]
        s.composer.keyQueue = 0x61 :: [] ∧ (waitsFor s 0x61).any = false ∧ isGlyphCode 0x61 = true ∧
          glyphPetals s.wheel 0x61 ≠ [] ∧ s.composer.format.pitch = .twelve ∧
          s.composer.printPoint + 10 ≤ s.composer.format.rightMargin) ∧
      ( let s := ready [0x62]
        (waitsFor s 0x62).any = false ∧ glyphPetals s.wheel 0x62 = [] ∧
          s.wheel.composites.find? (fun e => e.code == 0x62) = none) ∧
      ( let s := ready [0xE9]
        (waitsFor s 0xE9).any = false ∧ glyphPetals s.wheel 0xE9 = [] ∧
          s.wheel.composites.find? (fun e => e.code == 0xE9) = some ⟨0xE9, 0x65, 0xB4⟩ ∧
          glyphPetals s.wheel 0x65 ≠ [] ∧ glyphPetals s.wheel 0xB4 ≠ []) ∧
      ( let s := on (ready [0x61]) [] 1071
        (waitsFor s 0x61).any = false ∧ s.composer.format.rightMargin < 1071 + 10 ∧ 1071 + 10 ≤ 1800 ∧
          s.composer.marginRelease = false ∧ s.composer.format.mode = .direct) ∧
      ( let s := on (ready [0x61]) [] 1791
        (waitsFor s 0x61).any = false ∧ 1800 < 1791 + 10) := by
  decide +kernel

/-- Two words in LINE mode, the second open, that reach the right margin. -/
def wrapping : State :=
  { on (ready [0x61])
      [cell 0 1050 .glyph .held, cell 1 1060 .space .held, cell 2 1070 .glyph .held] 1080
      { Format.default with mode := .line } with
    composer :=
      { (ready [0x61]).composer with
        printPoint := 1080, format := { Format.default with mode := .line }, openRun := [2], nextCellId := 3 } }

theorem witness_glyph_item_wraps_the_open_word :
    let s := wrapping
    let before := [cell 0 1050 .glyph .held, cell 1 1060 .space .held]
    let run := [cell 2 1070 .glyph .held]
    s.composer.keyQueue = 0x61 :: [] ∧ (waitsFor s 0x61).any = false ∧ isGlyphCode 0x61 = true ∧
      glyphPetals s.wheel 0x61 ≠ [] ∧ s.wheel.active ≠ none ∧ s.line.cells = before ++ run ∧
      (s.line.cells.map (·.id)).Nodup ∧ (∀ c ∈ before, c.kind ≠ .lineEnd) ∧
      s.composer.openRun = run.map (·.id) ∧ (∀ c ∈ run, c.state = .held) ∧
      (∀ c ∈ run, c.kind = .glyph ∨ c.kind = .composite) ∧
      (∃ c ∈ before, c.kind = .glyph ∨ c.kind = .composite) ∧ s.composer.format.mode ≠ .direct ∧
      s.composer.format.wrap = true ∧ s.composer.marginRelease = false ∧
      s.composer.format.rightMargin < 1080 + glyphAdvance s.composer.format s.wheel 0x61 ∧
      s.composer.format.leftMargin + 10 + glyphAdvance s.composer.format s.wheel 0x61 ≤
        s.composer.format.rightMargin ∧ s.line.cells.length + 2 ≤ 200 := by
  decide +kernel

/-- A wrap in LINE mode whose line has one inner space and much room: justification is abandoned. -/
def abandoning : State :=
  let f : Format := { Format.default with mode := .line, alignment := .justify }
  { on (ready [0x61]) [cell 0 800 .glyph .held, cell 1 810 .space .held, cell 2 820 .glyph .held,
        cell 3 1070 .glyph .held] 1080 f with
    composer := { (ready [0x61]).composer with printPoint := 1080, format := f, openRun := [3], nextCellId := 4 } }

theorem witness_glyph_item_wrap_abandons_justification :
    let s := abandoning
    let e : LineEnding :=
      { rightMargin := 1080, alignment := .justify, spacing := s.composer.format.spacing, spaceWidth := 10,
        mode := .line, ending := .byWrap, moved := false }
    let le : Cell := { cell 4 830 .lineEnd .held with glyph := none, advance := 0 }
    s.line.cells = s.line.cells.take 3 ++ s.line.cells.drop 3 ∧ (waitsFor s 0x61).any = false ∧
      s.composer.openRun = (s.line.cells.drop 3).map (·.id) ∧
      (alignLine false e (s.line.cells.take 3 ++ [le])).abandoned = true := by
  decide +kernel

/-- The form watches after reset have a span, and a subject may meet both of them. -/
theorem witness_matched_conditions_and_acting_watch :
    1 ≤ r.zone.watch1.span ∧ 1 ≤ r.zone.watch2.span ∧
      ( let w : Watch := { position := 120, span := 8, kind := .hold, enabled := true }
        let z : ZoneMonitor := { r.zone with watch1 := w, watch2 := { w with span := 1 } }
        actingWatch z .hold 120 130 = some 3 ∧ actingWatch { z with watch1 := { w with enabled := false } } .hold
          120 130 = some 4 ∧ actingWatch z .hold 128 138 = none ∧ actingWatch z .hold 127 127 = some 3) := by
  decide +kernel

/-- Cells that leave the list before the window and with the release mark, and the whole list. -/
theorem witness_removal_of_cells :
    let s : State := { on r twoLines 130 with line := { (on r twoLines 130).line with releaseMark := some 2 } }
    (s.line.cells.map (·.id)).Nodup ∧
      s.line.cells = twoLines.take 2 ++ cell 2 120 .glyph .held :: [] ∧ s.line.releaseMark = some (2 : Nat) ∧
      ¬(∀ c ∈ s.line.cells, (fun c : Cell => c.id == 2) c = true) ∧ r.line.releaseMark = none := by
  decide +kernel

/-- The print point moved to the left of the zone start, and at it; an engine that goes on within a group. -/
theorem witness_bell_arm_and_next_order :
    ((on r [] 1019).composer.printPoint < (on r [] 1019).composer.format.rightMargin - 60 ∧
        r.composer.format.bellZone = 60 ∧ (on r [] 1020).composer.format.rightMargin - 60 ≤ 1020) ∧
      ( let s := withEngine (fun e => { e with order := none }) queued
        s.engine.state = .running ∧ s.engine.groupStarted = true ∧ s.engine.order = none) ∧
      queued.engine.order ≠ none := by
  decide +kernel

/-- A list of 200 cells, an item, and a print point. -/
def crowded (code : Byte) (p : Nat) : State := on (ready [code]) (List.replicate 200 (cell 0 120 .glyph .struck)) p

theorem witness_tab_and_return_items_reach_and_end :
    (   let s : State := { ready [0x09] with zone := { r.zone with tabStops := [120, 1080, 1081] } }
        s.composer.keyQueue = 0x09 :: [] ∧ (waitsFor s 0x09).any = false ∧ s.line.cells.length < 200 ∧
          s.zone.tabStops.Pairwise (· < ·) ∧ 1080 ∈ s.zone.tabStops ∧
          s.composer.printPoint < s.composer.format.rightMargin ∧
          ∀ t ∈ s.zone.tabStops, s.composer.printPoint < t → 1080 ≤ t) ∧
      (∀ t ∈ r.zone.tabStops, t ≤ 120 ∨ 1080 < t) ∧
      ( let s := on (ready [0x09]) [] 1080
        (waitsFor s 0x09).any = false ∧ s.composer.format.rightMargin ≤ s.composer.printPoint) ∧
      ((ready [0x0D]).composer.keyQueue = 0x0D :: [] ∧ (waitsFor (ready [0x0D]) 0x0D).any = false) ∧
      (∀ code ∈ ([0x09, 0x0D] : List Byte), ∀ p ∈ [120, 1080],
        (waitsFor (crowded code p) code).any = false ∧ 200 ≤ (crowded code p).line.cells.length) := by
  decide +kernel

theorem witness_backspace_relocate_and_correct_move_back :
    (   let s := on (ready [0x08]) [cell 0 120 .glyph .struck, cell 1 130 .glyph .held] 140
        (waitsFor s 0x08).any = false ∧
          composingCells s.line.cells = [cell 0 120 .glyph .struck] ++ cell 1 130 .glyph .held :: [] ∧
          (s.line.cells.map (·.id)).Nodup) ∧
      (waitsFor (on (ready [0x1C]) [cell 1 130 .glyph .held] 140) 0x1C).any = false ∧
      ( let s := on (ready [0x08]) [cell 0 120 .glyph .struck] 130
        (∀ d ∈ composingCells s.line.cells, d.state ≠ .held) ∧ s.line.composing.leftMargin + 10 ≤ 130) ∧
      ( let s := on (ready [0x08]) [] 129
        129 < s.line.composing.leftMargin + 10 ∧ s.composer.marginRelease = false) ∧
      ( let s := on (ready [0x1E]) [cell 0 120 .glyph .struck] 120
        s.composer.keyQueue = 0x1E :: [] ∧ (waitsFor s 0x1E).any = false ∧
          composingCells s.line.cells = [cell 0 120 .glyph .struck]) := by
  decide +kernel

/-- The wrap of a composite, of a glyph beside an open word that is printed, into 199 cells, and of an open word that
fills the new line. -/
theorem witness_glyph_item_wrap_cases :
    (   let s : State := { wrapping with composer := { wrapping.composer with keyQueue := [0xE9] } }
        s.composer.keyQueue = 0xE9 :: [] ∧ (waitsFor s 0xE9).any = false ∧ glyphPetals s.wheel 0xE9 = [] ∧
          s.wheel.composites.find? (fun e => e.code == 0xE9) = some ⟨0xE9, 0x65, 0xB4⟩ ∧
          glyphPetals s.wheel 0x65 ≠ [] ∧ glyphPetals s.wheel 0xB4 ≠ [] ∧
          s.composer.format.rightMargin < 1080 + glyphAdvance s.composer.format s.wheel 0xE9) ∧
      ( let printed : Cell := cell 2 1070 .glyph .struck
        let s : State := { wrapping with line := { wrapping.line with
          cells := [cell 0 1050 .glyph .held, cell 1 1060 .space .held, printed] } }
        s.line.cells = s.line.cells ++ [] ∧ (waitsFor s 0x61).any = false ∧
          (∃ c ∈ s.line.cells, c.id ∈ s.composer.openRun ∧ c.state ≠ .held) ∧
          ∃ c ∈ s.line.cells, (c.kind = .glyph ∨ c.kind = .composite) ∧ c.id ∉ s.composer.openRun) ∧
      ( let s : State := { wrapping with line := { wrapping.line with
          cells := (List.range 199).map fun k => cell k 120 .glyph .held } }
        198 < s.line.cells.length ∧ (s.line.cells.map (·.id)).Nodup ∧ (waitsFor s 0x61).any = false) ∧
      ( let run := (List.range 96).map fun k => cell k (120 + 10 * k) .glyph .held
        1080 < 120 + (run.map (·.advance)).sum + 10 ∧ run.length ≤ 198) := by
  decide +kernel

theorem witness_space_attribute_and_unassigned_items :
    (   let s := ready [0x20]
        s.composer.keyQueue = 0x20 :: [] ∧ (waitsFor s 0x20).any = false ∧ s.line.cells.length < 200 ∧
          s.composer.format.pitch = .twelve ∧ 120 + 10 ≤ s.composer.format.rightMargin) ∧
      ( let s := on (ready [0x20]) [] 1080
        (waitsFor s 0x20).any = false ∧ s.composer.format.rightMargin ≤ s.composer.printPoint ∧
          s.composer.marginRelease = false) ∧
      ( let s := on (ready [0x20]) [] 1079
        (waitsFor s 0x20).any = false ∧ s.composer.printPoint < s.composer.format.rightMargin) ∧
      (∀ code ∈ ([0x02, 0x15, 0x1B, 0x00, 0x7F, 0xA0] : List Byte),
        (ready [code]).composer.keyQueue = code :: [] ∧ (waitsFor (ready [code]) code).any = false) ∧
      isGlyphCode 0xA0 = false ∧ isGlyphCode 0x7F = false ∧ isGlyphCode 0x00 = false ∧
      ((crowded 0x20 120).composer.keyQueue = 0x20 :: [] ∧ (waitsFor (crowded 0x20 120) 0x20).any = false ∧
        200 ≤ (crowded 0x20 120).line.cells.length) := by
  decide +kernel

def printed (wheel : Nat) : Cell :=
  { cell 0 120 .glyph .struck with
    strikes := [{ position := 120, petal := 33, wheel := wheel, kind := .main, impression := 3 }] }

theorem witness_correct_item_acts_by_the_state_of_its_target :
    (∀ x ∈ [CellState.pending, .ordered, .struck, .lifting],
        let s := on (ready [0x1C]) [cell 0 120 .glyph x] 130
        s.composer.keyQueue = 0x1C :: [] ∧ (waitsFor s 0x1C).any = false ∧
          (∀ d ∈ composingCells s.line.cells, d.state ≠ .held) ∧ (s.line.cells.map (·.id)).Nodup ∧
          composingCells s.line.cells = [] ++ cell 0 120 .glyph x :: [] ∧ s.composer.printPoint = 120 + 10) ∧
      ( let s := on (ready [0x1C]) [printed 21] 130
        (∀ x ∈ (printed 21).strikes, x.wheel = s.wheel.mounted) ∧ s.sensors.tape.debounced = .closed ∧
          s.correction.waiting = [] ∧ s.strikeQueue.length + (printed 21).strikes.length ≤ 32) ∧
      (∃ x ∈ (printed 20).strikes, x.wheel ≠ 21) ∧
      (queued.engine.groupStarted = true ∧ queued.strikeQueue.head?.map (·.cell) = some 0 ∧
        queued.correction.deferred = none) := by
  decide +kernel

/-- A LINE-END cell in a state, its line's record, and an empty composing line. -/
def ended (x : CellState) (moved : Bool) : State :=
  let s := on (ready [0x1C]) [cell 0 120 .glyph .held, { cell 1 130 .lineEnd x with advance := 0 }] 120
  let e : LineEnding :=
    { rightMargin := 1080, alignment := .left, spacing := 8, spaceWidth := 10, mode := .direct, ending := .byReturn,
      moved := moved }
  { s with line := { s.line with paper := some { leftMargin := 120, ended := some e, releasedFlush := false } } }

theorem witness_correct_item_without_a_cell_of_the_line :
    (∀ x ∈ [CellState.held, .pending, .ordered, .lifting], ∀ m ∈ [false, true],
        let s := ended x m
        s.composer.keyQueue = 0x1C :: [] ∧ (waitsFor s 0x1C).any = false ∧
          s.line.cells = [cell 0 120 .glyph .held] ++ { cell 1 130 .lineEnd x with advance := 0 } :: [] ∧
          (s.line.cells.map (·.id)).Nodup ∧ composingCells s.line.cells = [] ∧
          s.composer.printPoint = s.line.composing.leftMargin ∧
          (s.line.paper.bind (·.ended)).map (·.moved) = some m ∧ s.engine.groupStarted = false) ∧
      ( let s : State := { ended .pending false with
          composer := { (ended .pending false).composer with printPoint := 130 } }
        s.composer.printPoint ≠ s.line.composing.leftMargin ∧ 120 + 10 = s.composer.printPoint ∧
          (waitsFor s 0x1C).any = false) ∧
      ( let s := on (ready [0x1C]) [] 129
        (waitsFor s 0x1C).any = false ∧ (∀ d ∈ s.line.cells, d.kind ≠ .lineEnd) ∧ 129 < 120 + 10 ∧
          s.composer.marginRelease = false ∧ 120 ≤ 129) ∧
      120 + 10 ≤ (on (ready [0x1C]) [] 130).composer.printPoint := by
  decide +kernel

theorem witness_word_correct_item_takes_the_run :
    (   let s := on (ready [0x1D]) [] 120
        s.composer.keyQueue = 0x1D :: [] ∧ (waitsFor s 0x1D).any = false ∧ correctionRun s = []) ∧
      ( let s := on (ready [0x1D]) [cell 0 120 .glyph .held, cell 1 130 .space .held] 140
        (waitsFor s 0x1D).any = false ∧ (s.line.cells.map (·.id)).Nodup ∧
          correctionRun s = [cell 1 130 .space .held] ++ [cell 0 120 .glyph .held] ∧
          placeFrom 120 ([cell 0 120 .glyph .held] ++ [cell 1 130 .space .held]) =
            [cell 0 120 .glyph .held] ++ [cell 1 130 .space .held] ∧
          s.composer.printPoint = 120 + (s.line.cells.map (·.advance)).sum) := by
  decide +kernel

/-- A run whose first cell is in each state, and one whose correction is refused. -/
theorem witness_correction_run_of_any_cells :
    (∀ x ∈ [CellState.held, .pending, .ordered, .struck, .lifting],
        let s := on (ready [0x1D]) [cell 0 120 .glyph x] 130
        s.composer.keyQueue = 0x1D :: [] ∧ (waitsFor s 0x1D).any = false ∧
          correctionRun s = [cell 0 120 .glyph x] ∧ cell 0 120 .glyph x ∈ s.line.cells ∧
          (s.line.cells.map (·.id)).Nodup) ∧
      ( let s := on (ready [0x1D]) [printed 21] 130
        correctionRun s = [printed 21] ∧ (printed 21).strikes ≠ [] ∧ s.correction.waiting = [] ∧
          s.sensors.tape.debounced = .closed ∧ (correctRun 0x1D [printed 21] s).removed = []) ∧
      (∃ x ∈ (printed 20).strikes, x.wheel ≠ 21) ∧
      ( let s := on (ready [0x1D]) [cell 0 120 .glyph .held] 130
        (correctRun 0x1D (correctionRun s) s).removed ≠ []) ∧
      (queued.engine.groupStarted = true ∧ queued.strikeQueue.head?.map (·.cell) = some 0 ∧
        cell 0 120 .glyph .ordered ∈ queued.line.cells) := by
  decide +kernel

theorem witness_line_end_alignment_meets_the_margins :
    let body := [cell 0 120 .glyph .held, cell 1 130 .space .held, cell 2 140 .glyph .held]
    let e : LineEnding :=
      { rightMargin := 170, alignment := .justify, spacing := 8, spaceWidth := 10, mode := .line,
        ending := .byWrap, moved := false }
    body = [] ++ cell 0 120 .glyph .held :: body.drop 1 ∧ body.getLast? = some (cell 2 140 .glyph .held) ∧
      (∀ c ∈ body, c.state = .held) ∧ 140 + 10 ≤ e.rightMargin ∧ (170 - 150) / 1 ≤ 2 * e.spaceWidth ∧
      2 * e.spaceWidth < (171 - 150) / 1 := by
  decide +kernel

/-! ### Groups, orders, the engine -/

theorem witness_group_of_a_cell_holds_its_strikes_in_order :
    (cell 0 120 .glyph .held).glyph = some 0x61 ∧ (cell 0 120 .glyph .held).kind = .glyph ∧
      (cell 0 120 .composite .held).kind = .composite ∧ (cell 0 120 .lineEnd .held).kind = .lineEnd ∧
      ((after .returnItem (ready [0x0D])).line.paper.bind (·.ended)).isSome = true := by
  decide +kernel

/-- A glyph cell or a SPACE cell with the underline attribute. -/
def underlinedCell (id start : Nat) (k : CellKind) (x : CellState) : Cell :=
  { cell id start k x with underline := true }

/-- An underlined SPACE cell: between two underlined glyphs, before a glyph that is not, and undecided. -/
theorem witness_group_of_a_space_cell :
    (underlinedCell 1 130 .space .pending).kind = .space ∧ (underlinedCell 1 130 .space .pending).advance ≠ 0 ∧
      [underlinedCell 0 120 .glyph .ordered] = [] ++ underlinedCell 0 120 .glyph .ordered :: [] ∧
      spaceUnderlined [underlinedCell 0 120 .glyph .ordered] [underlinedCell 2 140 .glyph .pending]
        (underlinedCell 1 130 .space .pending) = true ∧
      spaceUnderlined [underlinedCell 0 120 .glyph .ordered] [cell 2 140 .glyph .pending]
        (underlinedCell 1 130 .space .pending) = false ∧
      wheel.underscore = some 77 ∧ ({ wheel with underscore := none } : Profile).underscore = none := by
  decide +kernel

/-- A strike queue of `n` orders, and cells. -/
def loaded (n : Nat) (cells : List Cell) : State :=
  { on (ready []) cells 150 with strikeQueue := List.replicate n (strikeOf 9 120 true) }

/-- The supply of the strike queue: a lift that fits and one that does not, a deferred one, the cursor's cells. -/
theorem witness_supply_of_the_strike_queue :
    ( let g : LiftGroup := { cell := 0, orders := [strikeOf 0 120 true] }
      let s (n : Nat) : State := { loaded n [] with correction := { deferred := none, waiting := [g] } }
      g.orders.length ≤ 32 - (s 31).strikeQueue.length ∧ 32 - (s 32).strikeQueue.length < g.orders.length) ∧
      (   let s : State := { loaded 0 [] with correction := { deferred := some 0, waiting := [] } }
          s.correction.waiting = [] ∧ s.correction.deferred ≠ none) ∧
      (∀ c ∈ (loaded 0 [cell 0 120 .glyph .struck]).line.cells, c.state ≠ .held ∧ c.state ≠ .pending) ∧
      ( let a := cell 0 120 .glyph .ordered
        (∀ d ∈ [a], d.state ≠ .held ∧ d.state ≠ .pending) ∧ (∀ d ∈ [a], d.kind ≠ .lineEnd) ∧
          (∀ k ∈ [CellKind.glyph, .composite, .space, .tab, .lineEnd], (cell 1 130 k .pending).kind = k) ∧
          (cell 1 130 .space .pending).underline = false ∧ (cell 1 130 .glyph .held).state = .held ∧
          ∃ d ∈ [cell 0 120 .lineEnd .ordered], d.kind = .lineEnd) ∧
      ( let s := loaded 32 [cell 0 120 .glyph .pending]
        activeProfile s.wheel = some wheel ∧ 32 - s.strikeQueue.length <
          (buildGroup s.composer.format s.wheel wheel [] [] (cell 0 120 .glyph .pending)).orders.length) ∧
      (buildGroup .default (ready []).wheel wheel [] [] { cell 0 1801 .glyph .pending with id := 0 }).orders = [] ∧
      ( let c := underlinedCell 0 120 .space .pending
        (∀ d ∈ [cell 1 130 .space .pending], d.kind = .space) ∧ c.underline = true ∧
          ∃ d ∈ [cell 1 130 .tab .pending], d.kind ≠ .space) ∧
      activeProfile r.wheel = none := by
  decide +kernel

/-- A LIFT order at the head, of a wheel. -/
def lifting (wheel : Nat) : State :=
  let s := on (ready []) [{ printed 21 with state := .lifting }] 130
  { s with strikeQueue := [{ cell := 0, position := 120, last := true, work := .lift .main 33 wheel 3 }] }

theorem witness_orders_start_or_are_skipped_by_the_wheel :
    (   let s := queued
        s.strikeQueue = strikeOf 0 120 true :: [strikeOf 1 130 true] ∧
          choosePetal (s.engine.wheelPosition.getD 0) (glyphPetals s.wheel 0x61) = some 33 ∧
          activeProfile s.wheel = some wheel ∧ wheel.petals[33]?.map (·.impression) = some 3) ∧
      (   let s : State := { queued with wheel := { queued.wheel with glyphMap := [] } }
        glyphPetals s.wheel 0x61 = [] ∧ (strikeOf 0 120 true).last = true ∧ (strikeOf 0 120 false).last = false) ∧
      (∀ w ∈ [20, 21], (lifting w).strikeQueue =
          [] ++ { cell := 0, position := 120, last := true, work := .lift .main 33 w 3 } :: [] ∧
        { printed 21 with state := .lifting } ∈ (lifting w).line.cells ∧
        ((lifting w).line.cells.map (·.id)).Nodup ∧ (lifting w).wheel.mounted = 21 ∧
        (lifting w).sensors.tape.debounced = .closed) ∧
      (withInput .tape .opened .opened none (lifting 21)).sensors.tape.debounced = .opened ∧
      (   let s : State := { lifting 21 with correction := { deferred := some 0, waiting := [] } }
        s.correction.deferred = some 0 ∧ (printed 21).strikes ≠ [] ∧ (∀ x ∈ (printed 21).strikes, x.wheel = 21) ∧
          actingWatch s.zone .note 120 130 = none ∧ s.strikeQueue.length + 1 ≤ 32) ∧
      (   let z : ZoneMonitor := { r.zone with watch1 := { position := 128, span := 8, kind := .note, enabled := true } }
        actingWatch z .note 120 130 ≠ none) ∧
      ((0 : Nat) < 96 ∧ 95 < 96 ∧ turnOf 0 48 = .forward 48 ∧ turnOf 0 49 = .backward 47 ∧ turnOf 95 95 = .still) := by
  decide +kernel

theorem witness_group_start_is_judged_in_five_steps :
    (withInput .paper .opened .opened none r).sensors.paper.debounced = .opened ∧
      r.sensors.paper.debounced ≠ .opened ∧ r.impression.band ≠ .critical ∧
      ({ r.impression with band := .critical } : Impression).band = .critical ∧
      ¬(r.impression.coolingLatch = true ∨ 2400 < r.impression.heat) ∧
      2400 < ({ r.impression with heat := 2401 } : Impression).heat ∧
      ( let s := withEngine (fun e => { e with groupWait := some .cycle, cycleTimer := some 0 }) (ready [])
        s.engine.groupWait = some .cycle ∧ s.engine.cycleTimer = some 0 ∧ s.now < 0 + cycleTime s.effectiveSpeed) ∧
      r.engine.groupWait ≠ some .cycle := by
  decide +kernel

/-- The settling: READY with orders, RUNNING without, a start that is due and one that is not, and an engine in
IDENTIFYING whose wheel's profile is active, with an empty queue, with orders, and with the paper out. -/
theorem witness_settling_at_the_end_of_an_event :
    ((loaded 1 []).engine.state = .ready ∧ (loaded 1 []).strikeQueue ≠ []) ∧
      (   let s := withEngine (fun e => { e with state := .running }) (loaded 0 [])
          s.engine.state = .running ∧ s.strikeQueue = []) ∧
      startDue (syncRunning (supplyQueue (loaded 0 [cell 0 120 .glyph .pending]))) = true ∧
      startDue (syncRunning (supplyQueue queued)) = false ∧
      (∀ s ∈ [loaded 0 [], loaded 1 [], withInput .paper .opened .opened none (loaded 1 [])],
        let t := withEngine (fun e => { e with state := .identifying }) s
        t.engine.state = .identifying ∧ activeProfile t.wheel = some wheel ∧ wheel.code = t.wheel.mounted) ∧
      (settle (loaded 0 [])).engine.state = .ready ∧ (settle (loaded 1 [])).engine.state = .running ∧
      (settle (withInput .paper .opened .opened none (loaded 1 []))).engine.state = .paused .paper := by
  decide +kernel

theorem witness_motions_settling_and_drive_end :
    (   let s := striking .moving (some 4000) (some 2500) none
        s.engine.order = some (progress .moving (some 4000) (some 2500) none) ∧
          s.strikeQueue = strikeOf 0 120 true :: [] ∧ s.engine.homing = none ∧
          (progress .moving (some 4000) (some 2500) none).petal ≠ none) ∧
      ( let s := striking .settling none none (some 1020)
        s.engine.order.bind (·.phaseEnd) = some 1020 ∧ s.engine.latchedSpeed = some 3) ∧
      (striking .drive none none (some 1048)).engine.order.map (·.phase) = some .drive ∧
      ( let p : OrderProgress := { progress .moving none none none with petal := none, platen := true }
        p.petal = none ∧ p.wheel = none ∧ p.platen = true) ∧
      ( let p : OrderProgress := { progress .moving (some 4000) none none with petal := none }
        p.petal = none ∧ p.wheel = none ∧ p.platen = false ∧ p.carriage ≠ none) ∧
      ( let s : State := { on r twoLines 130 with line := { (on r twoLines 130).line with releaseMark := some 2 } }
        s.line.cells = [cell 0 120 .glyph .struck] ++ { cell 1 130 .lineEnd .pending with advance := 0 } ::
            [cell 2 120 .glyph .held] ∧ (s.line.cells.map (·.id)).Nodup ∧ s.line.releaseMark = some 2) := by
  decide +kernel

/-- The outputs: an engine off, in each homing phase, at rest, in RUNNING without an order, and in each phase of an
order, with and without a platen advance. -/
theorem witness_outputs_of_the_engine :
    let at_ (x : EngineState) : State := withEngine (fun e => { e with state := x }) r
    r.engine.state = .unhomed ∧ (at_ (.paused .cover)).engine.state = .paused .cover ∧
      (at_ (.faulted .noWheel)).engine.state.isFaulted = true ∧
      (∀ x ∈ [HomingPhase.carriageSearch, .carriageReturn, .wheelSearch, .wheelRead],
        let s := withEngine (fun e => { e with homing := some x }) (at_ .homing)
        s.engine.state = .homing ∧ s.engine.homing = some x) ∧
      (∀ x ∈ [EngineState.identifying, .ready, .paused .paper, .paused .supply], (at_ x).engine.state = x) ∧
      ((at_ .running).engine.state = .running ∧ (at_ .running).engine.order = none) ∧
      (∀ x ∈ [OrderPhase.moving, .settling, .drive, .brake],
        let s := striking x (some 4000) none none
        s.engine.state = .running ∧ s.engine.order = some (progress x (some 4000) none none) ∧
          (progress x (some 4000) none none).phase = x ∧ (progress x (some 4000) none none).platen = false ∧
          s.strikeQueue = strikeOf 0 120 true :: []) ∧
      (∀ w ∈ [33, 81, 80], ∃ d, d < 96 ∧ (w + d) % 96 = 33 ∧
        let p := progress .moving (some 4000) (some 2500) none
        p.wheel ≠ none ∧ p.petal = some 33 ∧
          (withEngine (fun e => { e with wheelPosition := some w }) r).engine.wheelPosition = some w) ∧
      ( let o : Order := { cell := 0, position := 120, last := true, work := .returnLine 24 }
        o.work = .returnLine 24 ∧ ({ progress .moving none none none with platen := true } : OrderProgress).platen = true) := by
  decide +kernel

theorem witness_brake_end_completes_the_order :
    let s := striking .brake none none (some 1080)
    s.engine.order = some (progress .brake none none (some 1080)) ∧
      (progress .brake none none (some 1080)).petal = some 33 ∧ s.strikeQueue = strikeOf 0 120 true :: [] ∧
      (strikeOf 0 120 false).last = false ∧ s.correction.deferred ≠ some 0 ∧ (s.line.cells.map (·.id)).Nodup ∧
      cell 0 120 .glyph .ordered ∈ s.line.cells := by
  decide +kernel

/-- A LIFT order in BRAKE, the last of its group, and a STRIKE order in BRAKE at a cell with a deferred lift. -/
theorem witness_brake_end_of_a_lift_and_of_a_deferred_lift :
    ( let s := withEngine (fun e => { e with
        state := .running, groupStarted := true, order := some (progress .brake none none (some 1080)) }) (lifting 21)
      s.engine.order = some (progress .brake none none (some 1080)) ∧
        s.strikeQueue = { cell := 0, position := 120, last := true, work := .lift .main 33 21 3 } :: [] ∧
        (s.line.cells.map (·.id)).Nodup ∧ { printed 21 with state := .lifting } ∈ s.line.cells) ∧
      ( let s : State := { striking .brake none none (some 1080) with
          correction := { deferred := some 0, waiting := [] } }
        s.engine.order = some (progress .brake none none (some 1080)) ∧
          s.strikeQueue = strikeOf 0 120 true :: [] ∧ s.correction.deferred = some (strikeOf 0 120 true).cell) := by
  decide +kernel

theorem witness_limits_are_faults_that_keep_the_queue :
    (   let s := striking .moving (some 4000) (some 2500) none
        s.engine.order.bind (·.carriage) = some 4000 ∧ s.engine.order.bind (·.wheel) = some 2500 ∧
          s.engine.homing ≠ some .carriageReturn ∧ s.engine.state.isFaulted = false) ∧
      (∀ x ∈ [HomingPhase.carriageSearch, .carriageReturn, .wheelSearch, .wheelRead],
        (withEngine (fun e => { e with homing := some x, homingLimit := some 1500 }) r).engine.homing = some x) ∧
      (EngineState.faulted .jamCarriage).isFaulted = true ∧ r.engine.homing ≠ some .carriageSearch := by
  decide +kernel

theorem witness_encoder_and_homing_events :
    ((ready []).engine.channelA = false ∧ (ready []).engine.channelB = false ∧
        (ready []).engine.carriage = some 120 ∧ (ready []).engine.state ≠ .unhomed) ∧
      (r.engine.state = .unhomed ∧ r.engine.carriage = none ∧ r.engine.homing = none) ∧
      (-24 ≤ (-24 : Int) ∧ (-25 : Int) < -24 ∧ (1824 : Int) < 1825) ∧
      ( let s := withEngine (fun e => { e with homing := some .carriageSearch, homingTravel := 1900 }) r
        s.engine.homing = some .carriageSearch ∧ 1900 ≤ s.engine.homingTravel ∧ s.engine.carriage = none) ∧
      (after (.feed 0 [96]) (ready [])).engine.feed = some 96 := by
  decide +kernel

theorem witness_wheel_code_read_resolves_the_wheel :
    let at_ (f : WheelUnit → WheelUnit) : State :=
      let s := withEngine (fun e => { e with state := .homing, homing := some .wheelRead }) (ready [])
      { s with wheel := f s.wheel }
    let s := at_ id
    (s.engine.homing = some .wheelRead ∧ s.wheel.fetch = none ∧ s.engine.state.isFaulted = false) ∧
      (activeProfile s.wheel = some wheel ∧ wheel.code = (21 : BitVec 6).toNat) ∧
      ( let s := at_ fun w => { w with active := none, mounted := 0 }
        s.wheel.cache[0]? = some (some wheel) ∧ s.wheel.resolution = .settled) ∧
      ((63 : BitVec 6).toNat ≠ wheel.code ∧ s.wheel.mounted ≠ 63 ∧ s.memory.state ≠ .absent ∧
        s.wheel.directoryState = .loading ∧ s.wheel.cache[1]? = some none) ∧
      ( let s := at_ fun w => { w with directoryState := .loaded, directory := w.directory.set 23 (some 63) }
        s.wheel.directoryState ≠ .loading ∧ s.wheel.directory[23]? = some (some 63) ∧
          ∀ j < 23, s.wheel.directory[j]? ≠ some (some 63)) ∧
      ( let s := at_ fun w => { w with active := none, mounted := 63, resolution := .fetching }
        s.wheel.mounted = (63 : BitVec 6).toNat ∧ s.wheel.resolution ≠ .settled ∧ activeProfile s.wheel = none) := by
  decide +kernel

theorem witness_supply_and_heat_events :
    (r.impression.firstPending = true ∧ r.impression.band = .nominal) ∧
      ( let x : Impression := { r.impression with firstPending := false, band := .critical }
        x.firstPending = false ∧ ¬194 < min 194 400 ∧ 194 < min 195 400 ∧ x.band = .critical) ∧
      (r.impression.coolingLatch = false) ∧ min 255 400 ≤ 255 ∧ ¬min 256 400 ≤ 255 ∧
      ( let x : Impression := { r.impression with coolingLatch := true, heat := 1920 }
        x.heat - x.heat / 16 ≤ 1800 ∧ 1800 < 1921 - 1921 / 16) := by
  decide +kernel

/-! ### Invariants -/

theorem witness_every_step_keeps_the_queues_bounded : queuesBounded r ∧ (mapped (fun _ => ()) .badByte r).isSome = true := by
  unfold queuesBounded
  decide +kernel

theorem witness_every_step_keeps_cells_orders_and_checks_bounded :
    listsBounded (on (ready []) ((List.range 200).map fun k => cell k 120 .glyph .held) 120) ∧
      (mapped (fun _ => ()) .badByte (ready [])).isSome = true := by
  unfold listsBounded
  decide +kernel

theorem witness_every_step_keeps_the_memory_canonical :
    memoryCanonical { r with chip := { r.chip with cells := [(0, 0xB7), (3, 1)] } } := by
  unfold memoryCanonical
  decide +kernel

theorem witness_every_step_keeps_zone_sounder_and_display :
    zoneAllowed { r.zone with tabStops := [0, 1800] } ∧ sounderAllowed (sounding [.click, .bell, .beep, .error] r).sounder ∧
      displayAllowed { r.display with cursorColumn := 27 } := by
  unfold zoneAllowed watchAllowed sounderAllowed displayAllowed
  decide +kernel

end Sys2Proof.Tests
end

/-! ## The key queue's room and the TYPE request (R2) -/

namespace Sys2Proof.Machine

section TypeRequest

variable (s : State)

/-! ### What the framer's return and the judgement of the head item leave of the key queue -/

@[simp] theorem hunt_composer : (hunt s).composer = s.composer := rfl

@[simp] theorem keyRoom_hunt : keyRoom (hunt s) = keyRoom s := rfl

/-- The judgement of the head item takes no item: the queue is among what `besideText` shows. -/
@[simp] theorem judgeHead_keyQueue : (judgeHead s).composer.keyQueue = s.composer.keyQueue := by
  have hqueue := congrArg (fun t : State => t.composer.keyQueue) (besideText_judgeHead s)
  exact hqueue

@[simp] theorem keyRoom_judgeHead : keyRoom (judgeHead s) = keyRoom s := by
  simp [keyRoom]

/-- Items that join the queue take up as much of its room. -/
theorem keyRoom_append (body : List Byte) :
    keyRoom { s with composer := { s.composer with keyQueue := s.composer.keyQueue ++ body } } =
      keyRoom s - body.length := by
  simp only [keyRoom, List.length_append]
  omega

/-! ### What the Composer makes of a TYPE request, row by row of R2 -/

variable {body : List Byte}

theorem handleType_of_badLength (h : body.length = 0 ∨ 48 < body.length) :
    handleType body s = (s, { status := .badValue, data := [] }) :=
  if_pos h

theorem handleType_of_fits (hpos : 1 ≤ body.length) (hmax : body.length ≤ 48)
    (hroom : body.length ≤ keyRoom s) :
    handleType body s =
      (judgeHead { s with composer := { s.composer with keyQueue := s.composer.keyQueue ++ body } },
        { status := .ok, data := [byte (keyRoom s - body.length)] }) := by
  have hlen : ¬(body.length = 0 ∨ 48 < body.length) := by omega
  simp only [handleType, if_neg hlen, if_pos hroom, keyRoom_judgeHead, keyRoom_append]

theorem handleType_of_room_lt (hmax : body.length ≤ 48) (hroom : keyRoom s < body.length) :
    handleType body s = (s, { status := .queueFull, data := [byte (keyRoom s)] }) := by
  have hlen : ¬(body.length = 0 ∨ 48 < body.length) := by omega
  simp only [handleType, if_neg hlen, if_neg (Nat.not_le.mpr hroom)]

end TypeRequest

/-- A TYPE request that is heard is handed to the Composer and answered. -/
theorem exec_type_of_hears {s : State} (h : hears s) (tag : Byte) (body : List Byte) :
    exec (.type tag body) s = .next (reply 0x01 tag (handleType body (hunt s))) :=
  congrArg Host.Outcome.next (acceptFrame_of_hears h 0x01 tag handleType body)

/-- Settles O11: the heard frame reaches `handleType`, whose three cases are R2's rows; the room named in the
answer is that of the queue before the judgement of the head item, which takes no item. -/
theorem type_request_takes_all_items_or_none : Obligations.type_request_takes_all_items_or_none := by
  intro tag body s hheard room
  rw [exec_type_of_hears hheard]
  refine ⟨fun hbad => ?badLength, fun hpos hmax hfits => ?fits, fun _ hmax hlack => ?roomLacks⟩
  case badLength => rw [handleType_of_badLength _ hbad]
  case fits =>
    rw [handleType_of_fits (hunt s) hpos hmax hfits]
    rfl
  case roomLacks =>
    rw [handleType_of_room_lt (hunt s) hmax hlack]
    rfl

end Sys2Proof.Machine

/-! ## The pulses of a firing (R85, R86) -/

namespace Sys2Proof.Machine

theorem clampInt_eq_max_min {lo hi : Int} (h : lo ≤ hi) (n : Int) :
    clampInt lo hi n = max lo (min hi n) := by
  unfold clampInt
  split
  case isTrue hlow => omega
  case isFalse hlow => split <;> omega

/-- R85: the value of a firing before the clamp, by the stages base, adjustment and supply factor. -/
def scaledDrive (k : Nat) (lift : Bool) (setting : Int) (b : Band) : Int :=
  ((impressionBase k + 6 * setting + if lift then 10 else 0) * b.factor + 4) / 8

section Pulses

variable (k : Nat) (lift : Bool) (setting : Int) (b : Band)

/-- The clamped value is positive, so nothing is lost on the way to a natural number. -/
theorem drivePulse_eq_clamp :
    (drivePulse k lift setting b : Int) = max 20 (min 100 (scaledDrive k lift setting b)) := by
  have hclamp := clampInt_eq_max_min (lo := 20) (hi := 100) (by decide) (scaledDrive k lift setting b)
  calc (drivePulse k lift setting b : Int)
      = ((clampInt 20 100 (scaledDrive k lift setting b)).toNat : Int) := rfl
    _ = clampInt 20 100 (scaledDrive k lift setting b) := Int.toNat_of_nonneg (by omega)
    _ = max 20 (min 100 (scaledDrive k lift setting b)) := hclamp

theorem le_drivePulse : 20 ≤ drivePulse k lift setting b := by
  have := drivePulse_eq_clamp k lift setting b
  omega

theorem drivePulse_le : drivePulse k lift setting b ≤ 100 := by
  have := drivePulse_eq_clamp k lift setting b
  omega

end Pulses

/-- R86: the shortest brake of the table is that of speed 4. -/
theorem le_brakeBase (speed : Nat) : 30 ≤ brakeBase speed := by
  unfold brakeBase
  split <;> decide

/-- R86: a drive of at most 100 leaves a brake of at least 20 in the strike window. -/
theorem le_brakePulse (speed : Nat) {d : Nat} (hd : d ≤ 100) : 20 ≤ brakePulse speed d := by
  have hbase := le_brakeBase speed
  exact Nat.le_min.mpr ⟨by omega, by omega⟩

/-- R86: a drive that fits the strike window fits it together with its brake. -/
theorem add_brakePulse_le (speed : Nat) {d : Nat} (hd : d ≤ 120) : d + brakePulse speed d ≤ 120 := by
  have hbrake : brakePulse speed d ≤ 120 - d := Nat.min_le_right _ _
  omega

/-- Settles O51: the statement's tables of bases, factors and brakes are those of `impressionBase`,
`Band.factor` and `brakeBase`; the bounds follow from the clamp to 20..100 and the cut at the window's end. -/
theorem hammer_pulses_stay_within_their_windows :
    Obligations.hammer_pulses_stay_within_their_windows := by
  intro k lift setting b speed base factor scaled d whole
  have hd : d ≤ 100 := drivePulse_le k lift setting b
  have hscaled : scaled = scaledDrive k lift setting b := by cases b <;> rfl
  have hwhole : whole = brakeBase speed := rfl
  have hbrake : brakePulse speed d = min whole (120 - d) := by rw [hwhole, brakePulse]
  have hdrive : (d : Int) = max 20 (min 100 scaled) := hscaled ▸ drivePulse_eq_clamp k lift setting b
  exact ⟨hdrive, le_drivePulse k lift setting b, hd, hbrake, le_brakePulse speed hd,
    add_brakePulse_le speed (hd.trans (by decide))⟩

end Sys2Proof.Machine

/-! ## The cursor index (R144) -/

namespace Sys2Proof.Machine

/-- The greatest end is at or before a point when every cell ends there or before. -/
theorem greatestEnd_le_iff {cells : List Cell} {p : Nat} :
    greatestEnd cells ≤ p ↔ ∀ c ∈ cells, c.start + c.advance ≤ p := by
  have hmax : (0 :: cells.map Cell.stop).max? = some (greatestEnd cells) := List.max?_cons'
  simpa [Cell.stop] using List.max?_le_iff hmax (x := p)

/-! ### R144 case by case -/

section CursorIndex

variable {cells : List Cell} {p : Nat}

/-- R144, case 1. It covers a composing line with no cell, of which the hypothesis says nothing. -/
theorem cursorIndex_of_ends_le (h : ∀ c ∈ composingCells cells, c.start + c.advance ≤ p) :
    cursorIndex cells p = cells.length :=
  if_pos (.inr (greatestEnd_le_iff.mpr h))

/-- R144, cases 2 and 3: the search for a start at or after the print point decides. -/
theorem cursorIndex_of_lt_end (h : ∃ d ∈ composingCells cells, p < d.start + d.advance) :
    cursorIndex cells p =
      ((composingCells cells).findIdx? fun c => p ≤ c.start).elim cells.length
        (cells.length - (composingCells cells).length + ·) := by
  obtain ⟨d, hd, hend⟩ := h
  have hline : composingCells cells ≠ [] := List.ne_nil_of_mem hd
  have hgreatest : ¬greatestEnd (composingCells cells) ≤ p := fun hle =>
    absurd (greatestEnd_le_iff.mp hle d hd) (Nat.not_le.mpr hend)
  rw [cursorIndex, if_neg (not_or.mpr ⟨hline, hgreatest⟩)]
  cases List.findIdx? _ (composingCells cells) <;> rfl

/-- R144, case 2: the list index of the first cell of the composing line that starts at or after `p`. -/
theorem cursorIndex_of_first_start {before l r : List Cell} {c : Cell}
    (hcells : cells = before ++ (l ++ c :: r)) (hline : composingCells cells = l ++ c :: r)
    (hend : ∃ d ∈ composingCells cells, p < d.start + d.advance)
    (hbefore : ∀ d ∈ l, d.start < p) (hstart : p ≤ c.start) :
    cursorIndex cells p = before.length + l.length := by
  have hnone : l.findIdx? (fun d => p ≤ d.start) = none :=
    List.findIdx?_eq_none_iff.mpr fun d hd => decide_eq_false (Nat.not_le.mpr (hbefore d hd))
  have hfirst : (l ++ c :: r).findIdx? (fun d => p ≤ d.start) = some l.length := by
    simp [List.findIdx?_append, hnone, List.findIdx?_cons, hstart]
  have hoffset : cells.length - (l ++ c :: r).length = before.length := by
    rw [hcells, List.length_append, Nat.add_sub_cancel]
  rw [cursorIndex_of_lt_end hend, hline, hfirst, hoffset, Option.elim_some]

/-- R144, case 3: no cell of the composing line starts at or after `p`. -/
theorem cursorIndex_of_starts_lt (h : ∀ c ∈ composingCells cells, c.start < p) :
    cursorIndex cells p = cells.length := by
  by_cases hends : ∀ c ∈ composingCells cells, c.start + c.advance ≤ p
  case pos => exact cursorIndex_of_ends_le hends
  case neg =>
    have hnone : (composingCells cells).findIdx? (fun c => p ≤ c.start) = none :=
      List.findIdx?_eq_none_iff.mpr fun c hc => decide_eq_false (Nat.not_le.mpr (h c hc))
    push Not at hends
    rw [cursorIndex_of_lt_end hends, hnone, Option.elim_none]

end CursorIndex

/-- A render places the cursor, and the columns it fills leave the cursor index so. -/
theorem render_cursorIndex {s : State} (h : s.display.rendered = true) :
    (render s).display.cursorIndex = cursorIndex s.line.cells s.composer.printPoint := by
  rw [render, if_pos h]
  rfl

/-- Settles O24: R144's cases are those of `cursorIndex`, the cells of the paper line being counted before the
composing line's own, and a render takes its cursor index from there. -/
theorem cursor_index_follows_the_print_point : Obligations.cursor_index_follows_the_print_point := by
  refine ⟨fun cells before line p hcells hline => ?_, fun s => render_cursorIndex⟩
  subst hline
  refine ⟨cursorIndex_of_ends_le, fun l c r hsplit hend hbefore hstart => ?_, cursorIndex_of_starts_lt⟩
  exact cursorIndex_of_first_start (hsplit ▸ hcells) hsplit hend hbefore hstart

end Sys2Proof.Machine


/-! ## What every operation keeps (for the invariants of R1, R10, R65, R118, R119, R130, R143, R172, R177, R179) -/

namespace Sys2Proof.Machine

/-- From `s` to `t` each bound that the invariants state is kept, and no reply is added. -/
structure Keeps (s t : State) : Prop where
  keyQueue : s.composer.keyQueue.length ≤ 96 → t.composer.keyQueue.length ≤ 96
  replies : t.link.replies.length ≤ s.link.replies.length
  reports : (s.link.reports.map fun e => e.kind).Nodup → (t.link.reports.map fun e => e.kind).Nodup
  cells : s.line.cells.length ≤ 200 → t.line.cells.length ≤ 200
  orders : s.strikeQueue.length ≤ 32 → t.strikeQueue.length ≤ 32
  checks : s.spelling.checkQueue.length ≤ 8 → t.spelling.checkQueue.length ≤ 8
  memory : memoryCanonical s → memoryCanonical t
  zone : zoneAllowed s.zone → zoneAllowed t.zone
  sounder : sounderAllowed s.sounder → sounderAllowed t.sounder
  display : displayAllowed s.display → displayAllowed t.display

/-- What the invariants read of a state. -/
def boundedView (s : State) : (List Byte × List OutFrame × List ReportEntry) ×
    (List Cell × List Order × List Nat) × Memory × (List Nat × Watch × Watch) × Sounder × List DisplayCell × Nat :=
  ((s.composer.keyQueue, s.link.replies, s.link.reports), (s.line.cells, s.strikeQueue, s.spelling.checkQueue),
    s.chip.cells, (s.zone.tabStops, s.zone.watch1, s.zone.watch2), s.sounder, s.display.cells,
    s.display.cursorColumn)

namespace Keeps

theorem of_view {s t : State} (h : boundedView t = boundedView s) : Keeps s t := by
  simp only [boundedView, Prod.mk.injEq] at h
  obtain ⟨⟨hkey, hreplies, hreports⟩, ⟨hcells, horders, hchecks⟩, hmemory, ⟨htabs, hwatch1, hwatch2⟩, hsounder,
    hshown, hcolumn⟩ := h
  constructor
  case keyQueue => rw [hkey]; exact id
  case replies => rw [hreplies]
  case reports => rw [hreports]; exact id
  case cells => rw [hcells]; exact id
  case orders => rw [horders]; exact id
  case checks => rw [hchecks]; exact id
  case memory => rw [memoryCanonical, memoryCanonical, hmemory]; exact id
  case zone => rw [zoneAllowed, zoneAllowed, htabs, hwatch1, hwatch2]; exact id
  case sounder => rw [hsounder]; exact id
  case display => rw [displayAllowed, displayAllowed, hshown, hcolumn]; exact id

theorem refl (s : State) : Keeps s s := of_view rfl

theorem trans {s t u : State} (h : Keeps s t) (g : Keeps t u) : Keeps s u where
  keyQueue := g.keyQueue ∘ h.keyQueue
  replies := g.replies.trans h.replies
  reports := g.reports ∘ h.reports
  cells := g.cells ∘ h.cells
  orders := g.orders ∘ h.orders
  checks := g.checks ∘ h.checks
  memory := g.memory ∘ h.memory
  zone := g.zone ∘ h.zone
  sounder := g.sounder ∘ h.sounder
  display := g.display ∘ h.display

/-- `trans` with the later operation named first. -/
theorem after {s t u : State} (g : Keeps t u) (h : Keeps s t) : Keeps s u := h.trans g

/-! ### Updates of one list -/

theorem of_cells_le {s : State} {l : List Cell} (h : l.length ≤ s.line.cells.length) :
    Keeps s { s with line := { s.line with cells := l } } :=
  { refl s with cells := h.trans }

theorem of_orders_le {s : State} {l : List Order} (h : l.length ≤ s.strikeQueue.length) :
    Keeps s { s with strikeQueue := l } :=
  { refl s with orders := h.trans }

theorem of_checks_le {s : State} {l : List Nat} (h : l.length ≤ s.spelling.checkQueue.length) :
    Keeps s { s with spelling := { s.spelling with checkQueue := l } } :=
  { refl s with checks := h.trans }

theorem of_foldl {α : Type} {f : State → α → State} (h : ∀ s a, Keeps s (f s a)) (l : List α) :
    ∀ s, Keeps s (l.foldl f s) := by
  induction l with
  | nil => exact refl
  | cons a l ih => exact fun s => (h s a).trans (ih _)

end Keeps

section

variable (s : State)

/-! ### Shared operations -/

theorem keeps_raise (k : ReportKind) (r : Nat) (d : List Byte) : Keeps s (raise k r d s) := by
  obtain ⟨-, h⟩ | ⟨-, h⟩ := raise_cases s k r d <;> rw [h]
  · exact .refl s
  · exact { Keeps.refl s with reports := coalesce_nodup k r d _ }

theorem keeps_askSound (o : OneShot) : Keeps s (askSound o s) := by
  have hsounder := askSound_allowed s o
  obtain h | ⟨-, -, h⟩ | ⟨-, -, -, h⟩ := askSound_cases s o <;> rw [h] at hsounder ⊢
  · exact .refl s
  · exact { Keeps.refl s with sounder := hsounder }
  · exact { Keeps.refl s with sounder := hsounder }

theorem keeps_modifyCell (id : Nat) (f : Cell → Cell) : Keeps s (modifyCell id f s) :=
  .of_cells_le (by simp [modifyCells])

theorem keeps_setCellState (id : Nat) (x : CellState) : Keeps s (setCellState id x s) := keeps_modifyCell ..

theorem keeps_modifyWord (id : Nat) (f : Word → Word) : Keeps s (modifyWord id f s) := .of_view rfl

theorem keeps_askMemory (u : User) (a : Access) : Keeps s (askMemory u a s) := .of_view rfl

theorem keeps_endOperation (u : User) : Keeps s (endOperation u s) := by
  cases u
  case store => unfold endOperation; dsimp only; split <;> exact .of_view rfl
  all_goals exact .of_view rfl

theorem keeps_failWrite (n : Nat) (r : Request) : Keeps s (failWrite n r s) :=
  (keeps_raise ..).trans (keeps_endOperation ..)

theorem keeps_beginTransaction (r : Request) : Keeps s (beginTransaction r s) := by
  unfold beginTransaction
  split <;> exact .of_view rfl

theorem keeps_grantWithin (n : Nat) : ∀ s, Keeps s (grantWithin n s) := by
  induction n with
  | zero => exact .refl
  | succ n ih =>
    intro s
    unfold grantWithin
    split
    · split
      · exact .refl s
      · next r m _ =>
        have htaken : Keeps s { s with memory := m } := .of_view rfl
        split
        · exact (htaken.trans (keeps_failWrite ..)).trans (ih _)
        · exact htaken.trans (keeps_beginTransaction ..)
    · exact .refl s

theorem keeps_grant : Keeps s (grant s) := keeps_grantWithin ..

/-! ### Words -/

theorem keeps_raiseSpell (r : Nat) (d : List Byte) : Keeps s (raiseSpell r d s) := keeps_raise ..

theorem keeps_closeOpenWord : Keeps s (closeOpenWord s) := .of_view rfl

theorem classification_queued {w : Word} {e : IgnoreEntry} (h : classification s w e = .queued) :
    s.spelling.checkQueue.length < 8 := by
  unfold classification at h
  repeat' split at h
  all_goals first | contradiction | exact Nat.lt_of_not_le ‹_›

theorem keeps_classify (id : Nat) : Keeps s (classify id s) := by
  unfold classify
  split
  · exact .refl s
  · dsimp only
    split
    · exact keeps_modifyWord ..
    · split
      · exact .of_view rfl
      · exact (keeps_raiseSpell ..).after (.of_view rfl)
      · next h =>
        have hroom := classification_queued s h
        have hlength : (s.spelling.checkQueue ++ [id]).length ≤ 8 := by
          rw [List.length_append]
          exact hroom
        exact { Keeps.refl s with checks := fun _ => hlength }
      · exact .of_view rfl

theorem keeps_completeOpenWord : Keeps s (completeOpenWord s) := by
  unfold completeOpenWord
  split
  · exact keeps_closeOpenWord s
  · exact (keeps_closeOpenWord s).trans (keeps_classify ..)
  · exact keeps_closeOpenWord s

theorem keeps_beginWord (cell : Nat) : Keeps s (beginWord cell s) := by
  unfold beginWord
  split
  · exact (keeps_raiseSpell ..).after (.of_view rfl)
  · exact (keeps_modifyCell ..).after (.of_view rfl)

theorem keeps_joinOpenWord (ids : List Nat) : Keeps s (joinOpenWord ids s) := by
  unfold joinOpenWord
  split
  · exact .refl s
  · exact { Keeps.refl s with cells := (List.length_map _).trans_le }
  · exact .of_view rfl

theorem keeps_spellCell (cell : Nat) : Keeps s (spellCell cell s) := by
  unfold spellCell
  split
  · exact .refl s
  · dsimp only
    split
    · split
      · exact keeps_joinOpenWord ..
      · split
        · exact keeps_joinOpenWord ..
        · exact (keeps_completeOpenWord s).trans (keeps_beginWord ..)
    · split
      · exact .of_view rfl
      · exact keeps_completeOpenWord s

theorem keeps_spellLineEnd : Keeps s (spellLineEnd s) := by
  unfold spellLineEnd
  split
  · exact keeps_completeOpenWord s
  · exact .refl s

theorem keeps_removeWordRecord (id : Nat) : Keeps s (removeWordRecord id s) := by
  unfold removeWordRecord
  dsimp only
  refine Keeps.trans (t := { s with spelling := { s.spelling with
    words := s.spelling.words.filter fun w => w.id != id
    checkQueue := s.spelling.checkQueue.filter fun q => q != id } })
    { Keeps.refl s with checks := (List.length_filter_le ..).trans } ?_
  split <;> split <;> exact .of_view rfl

theorem keeps_reopenWord (id : Nat) : Keeps s (reopenWord id s) := by
  unfold reopenWord
  dsimp only
  refine Keeps.trans (t := { s with spelling := { s.spelling with
    checkQueue := s.spelling.checkQueue.filter fun q => q != id } }) (.of_checks_le (List.length_filter_le ..)) ?_
  split <;> exact .of_view rfl

theorem keeps_wordLoses (b : Bool) (id : Nat) : Keeps s (wordLoses b id s) := by
  unfold wordLoses
  split
  · exact .refl s
  · split
    · exact keeps_removeWordRecord ..
    · dsimp only
      split
      · exact keeps_modifyWord ..
      · split
        · exact Keeps.trans (t := reopenWord id _) ((keeps_reopenWord ..).after (keeps_modifyWord ..)) (.of_view rfl)
        · exact (keeps_classify ..).after ((keeps_reopenWord ..).after (keeps_modifyWord ..))

theorem keeps_shortenRun (gone : List Nat) : Keeps s (shortenRun gone s) := by
  obtain ⟨_, -, -, h⟩ | ⟨_, -, -, h⟩ | ⟨-, h⟩ := shortenRun_cases s gone <;> rw [h]
  · exact keeps_closeOpenWord s
  · exact .of_view rfl
  · exact .refl s

theorem keeps_spellRemoved (b : Bool) (l : List Cell) : Keeps s (spellRemoved b l s) := by
  unfold spellRemoved
  refine Keeps.trans ?_ (Keeps.of_foldl (fun s id => keeps_wordLoses s b id) _ _)
  exact (keeps_shortenRun ..).after (.of_view rfl)

theorem keeps_skipWaiting (r : Option SkipReason) : Keeps s (skipWaiting r s) :=
  { Keeps.refl s with checks := fun _ => Nat.zero_le _ }

theorem keeps_becomeUnavailable (r : Nat) : Keeps s (becomeUnavailable r s) := by
  unfold becomeUnavailable
  split
  · exact .refl s
  · exact (keeps_raiseSpell ..).after ((keeps_skipWaiting ..).after (.of_view rfl))

theorem keeps_becomeAvailable : Keeps s (becomeAvailable s) := by
  unfold becomeAvailable
  split
  · exact .refl s
  · exact (keeps_raiseSpell ..).after (.of_view rfl)

theorem keeps_spellingModeChanged (old new : SpellingMode) : Keeps s (spellingModeChanged old new s) := by
  unfold spellingModeChanged
  split <;> split
  · exact (keeps_skipWaiting ..).after (.of_view rfl)
  · exact .of_view rfl
  · exact keeps_skipWaiting ..
  · exact .refl s

/-! ### The Line Memory -/

theorem length_advanceTo (closed : Cell → Bool) (m : Nat) (l : List Cell) :
    (advanceTo closed m l).length = l.length := by
  simpa using congrArg List.length (unplanned_advanceTo closed m l)

theorem keeps_releaseAdvance : Keeps s (releaseAdvance s) := by
  unfold releaseAdvance
  split
  · exact .refl s
  · exact .of_cells_le (length_advanceTo ..).le

theorem keeps_releaseTo (c : Nat) : Keeps s (releaseTo c s) :=
  (keeps_releaseAdvance _).after (.of_view rfl)

theorem correctWindow_cells (ws : Nat) : (correctWindow ws s).cells = s.display.cells := by
  unfold correctWindow
  dsimp only
  split <;> rfl

theorem correctWindow_cursorColumn (ws : Nat) :
    (correctWindow ws s).cursorColumn = s.display.cursorColumn := by
  unfold correctWindow
  dsimp only
  split <;> rfl

theorem correctWindow_allowed (ws : Nat) (h : displayAllowed s.display) :
    displayAllowed (correctWindow ws s) := by
  rwa [displayAllowed, correctWindow_cells, correctWindow_cursorColumn]

theorem keeps_dropCells (gone : Cell → Bool) : Keeps s (dropCells gone s) :=
  { Keeps.refl s with
    cells := (List.length_filter_le ..).trans
    display := correctWindow_allowed s _ }

theorem keeps_removeCells (b : Bool) (gone : Cell → Bool) : Keeps s (removeCells b gone s) :=
  ((keeps_dropCells ..).trans (keeps_spellRemoved ..)).trans (keeps_releaseAdvance _)

end

end Sys2Proof.Machine


/-! ## What the blocks' operations keep -/

namespace Sys2Proof.Machine

section

variable (s : State)

/-! ### The end of a line -/

theorem bodyCells_append_trailingCells (line : List Cell) : bodyCells line ++ trailingCells line = line := by
  unfold bodyCells trailingCells
  rw [← List.reverse_append, List.takeWhile_append_dropWhile, List.reverse_reverse]

theorem length_justifyCells (q r : Nat) (l : List Cell) :
    ∀ inked k gain, (justifyCells q r inked k gain l).length = l.length := by
  induction l with
  | nil => intros; rfl
  | cons c l ih =>
    intro inked k gain
    unfold justifyCells
    split <;> simp [ih]

theorem length_withCollapsed {body : List Cell} {line : List Cell} (h : body.length = (bodyCells line).length) :
    (withCollapsed body (trailingCells line)).length = line.length := by
  have hparts := congrArg List.length (bodyCells_append_trailingCells line)
  rw [List.length_append] at hparts
  simp only [withCollapsed, collapse, List.length_append, List.length_map]
  omega

/-- R34 to R36: alignment moves cells and drops none. -/
theorem length_alignLine (flush : Bool) (e : LineEnding) (line : List Cell) :
    (alignLine flush e line).cells.length = line.length := by
  unfold alignLine
  split
  · rfl
  · split
    · rfl
    · dsimp only
      split
      · rfl
      · exact length_withCollapsed (by simp [moveRight])
      · exact length_withCollapsed (by simp [moveRight])
      · split
        · rfl
        · split
          · rfl
          · exact length_withCollapsed (length_justifyCells ..)

theorem length_replaceEnded {new cells : List Cell} (h : new.length = (endedCells cells).length) :
    (replaceEnded new cells).length = cells.length := by
  unfold endedCells at h
  unfold replaceEnded
  split
  · rfl
  · next i hi =>
    rw [hi, List.length_take] at h
    rw [List.length_append, List.length_drop, h]
    omega

theorem keeps_endLine (how : Ending) : Keeps s (endLine how s) := by
  unfold endLine
  dsimp only
  have hlength (flush : Bool) (e : LineEnding) :
      (replaceEnded (alignLine flush e (endedCells s.line.cells)).cells s.line.cells).length ≤
        s.line.cells.length := (length_replaceEnded (length_alignLine ..)).le
  split
  · exact (keeps_raise ..).after { Keeps.refl s with cells := (hlength _ _).trans }
  · exact { Keeps.refl s with cells := (hlength _ _).trans }

/-! ### The Zone Monitor -/

theorem keeps_zoneEvent (c : ZoneCause) (a : Option Nat) (l x y : Nat) (b : Byte) :
    Keeps s (zoneEvent c a l x y b s) := keeps_raise ..

theorem keeps_refuseRightStop (x y : Nat) (b : Byte) : Keeps s (refuseRightStop x y b s) :=
  (keeps_zoneEvent ..).trans (keeps_askSound ..)

theorem keeps_refuseCarriageEnd (x y : Nat) (b : Byte) : Keeps s (refuseCarriageEnd x y b s) :=
  (keeps_zoneEvent ..).trans (keeps_askSound ..)

theorem keeps_setPrintPoint (p : Nat) : Keeps s (setPrintPoint p s) := .of_view rfl

theorem keeps_backUp (d : Nat) (b : Byte) : Keeps s (backUp d b s) := by
  unfold backUp
  dsimp only
  split
  · exact keeps_setPrintPoint ..
  · split
    · exact .of_view rfl
    · exact (keeps_zoneEvent ..).after (keeps_setPrintPoint ..)

theorem keeps_judgeBell (c : Cell) : Keeps s (judgeBell c s) := by
  unfold judgeBell
  split
  · exact (keeps_zoneEvent ..).after ((keeps_askSound ..).after (.of_view rfl))
  · exact .refl s

theorem keeps_rearmBell : Keeps s (rearmBell s) := by
  unfold rearmBell
  split <;> exact .of_view rfl

theorem keeps_rearmAfter (p : Nat) : Keeps s (rearmAfter p s) := by
  unfold rearmAfter
  split
  · exact .refl s
  · exact keeps_rearmBell s

theorem keeps_judgeNote (c : Nat) : Keeps s (judgeNote c s) := by
  unfold judgeNote
  split
  · exact .refl s
  · split
    · exact .refl s
    · exact keeps_zoneEvent ..

/-! ### The Wheel Unit -/

theorem keeps_setWheel (w : WheelUnit) : Keeps s (setWheel w s) := .of_view rfl

theorem keeps_raiseActive (n : Nat) : Keeps s (raiseActive n s) := by
  unfold raiseActive
  split
  · exact .refl s
  · exact keeps_raise ..

theorem keeps_awaitRecords (c : Nat) : Keeps s (awaitRecords c s) :=
  (keeps_raise ..).after (keeps_setWheel ..)

theorem keeps_searchFetch : Keeps s (searchFetch s) := by
  unfold searchFetch
  split
  · split
    · exact .refl s
    · split
      · exact (keeps_awaitRecords ..).after (keeps_setWheel ..)
      · exact (keeps_askMemory ..).after (keeps_setWheel ..)
  · exact .refl s

theorem keeps_abandonFetch : Keeps s (abandonFetch s) := by
  unfold abandonFetch
  split <;> exact .of_view rfl

theorem keeps_resolveWheel (c : Nat) : Keeps s (resolveWheel c s) := by
  unfold resolveWheel
  split
  · exact (keeps_raiseActive ..).after (keeps_setWheel ..)
  · split
    · exact keeps_awaitRecords ..
    · exact (keeps_searchFetch _).after (keeps_setWheel ..)

theorem keeps_wheelRead (c : Nat) : Keeps s (wheelRead c s) := by
  unfold wheelRead
  dsimp only
  split
  · exact (keeps_setWheel ..).after ((keeps_abandonFetch _).after (keeps_setWheel ..))
  · split
    · exact keeps_setWheel ..
    · split
      · exact keeps_setWheel ..
      · exact (keeps_resolveWheel ..).after ((keeps_setWheel ..).after
          ((keeps_abandonFetch _).after (keeps_setWheel ..)))

theorem keeps_directoryReadEnd (d : List Byte) : Keeps s (directoryReadEnd d s) := by
  unfold directoryReadEnd
  dsimp only
  split
  · exact (keeps_searchFetch _).after (keeps_setWheel ..)
  · exact (keeps_askMemory ..).after (keeps_setWheel ..)

theorem keeps_fetchReadEnd (d : List Byte) : Keeps s (fetchReadEnd d s) := by
  unfold fetchReadEnd
  split
  · dsimp only
    split
    · exact (keeps_askMemory ..).after (keeps_setWheel ..)
    · split
      · exact (keeps_raiseActive ..).after (keeps_setWheel ..)
      · exact (keeps_awaitRecords ..).after ((keeps_raise ..).after (keeps_setWheel ..))
  · exact .refl s

theorem keeps_storeWriteEnd : Keeps s (storeWriteEnd s) := by
  unfold storeWriteEnd
  split
  · exact .refl s
  · dsimp only
    split
    · exact (keeps_raise ..).after (.of_view rfl)
    · exact (keeps_askMemory ..).after (keeps_setWheel ..)

/-! ### Lookups and user words -/

theorem keeps_applyResult (good : Bool) : Keeps s (applyResult good s) := by
  unfold applyResult
  split
  · exact .refl s
  · dsimp only
    split
    · exact .of_view rfl
    · split
      · exact .of_view rfl
      · refine (keeps_releaseAdvance _).after ?_
        split
        · exact .of_view rfl
        · exact (keeps_raiseSpell ..).after ((keeps_askSound ..).after (.of_view rfl))

theorem keeps_searchUserWords (k : Nat) : Keeps s (searchUserWords k s) := by
  unfold searchUserWords
  split
  · exact .refl s
  · split
    · exact keeps_applyResult ..
    · split
      · exact keeps_applyResult ..
      · exact .of_view rfl

theorem keeps_askDictionary (l : Lookup) (o : Nat) : Keeps s (askDictionary l o s) := by
  unfold askDictionary
  dsimp only
  split
  · exact .of_view rfl
  · exact (keeps_searchUserWords ..).after (.of_view rfl)

theorem keeps_bucketKnown (l : Lookup) (e : List Byte) : Keeps s (bucketKnown l e s) := by
  unfold bucketKnown
  dsimp only
  split
  · exact keeps_searchUserWords ..
  · exact keeps_askDictionary ..

theorem keeps_lookupReadEnd (d : List Byte) : Keeps s (lookupReadEnd d s) := by
  unfold lookupReadEnd
  split
  · exact .refl s
  · split
    · exact keeps_askDictionary ..
    · exact keeps_bucketKnown ..
    · dsimp only
      split
      · exact keeps_applyResult ..
      · exact keeps_searchUserWords ..
      · exact keeps_askDictionary ..
    · dsimp only
      split
      · exact .of_view rfl
      · split
        · exact keeps_applyResult ..
        · exact keeps_searchUserWords ..

theorem keeps_beginLookupOnce : Keeps s (beginLookupOnce s) := by
  unfold beginLookupOnce
  split
  · next id rest _ _ hqueue =>
    have hshorter : Keeps s (setSpelling { s.spelling with checkQueue := rest } s) :=
      .of_checks_le (by rw [hqueue]; exact Nat.le_succ _)
    split
    · exact hshorter
    · exact (keeps_askDictionary ..).after (hshorter.trans (keeps_modifyWord ..))
  · exact .refl s

theorem keeps_beginLookups (n : Nat) : ∀ s, Keeps s (beginLookups n s) := by
  induction n with
  | zero => exact .refl
  | succ n ih => exact fun s => (keeps_beginLookupOnce s).trans (ih _)

theorem keeps_beginLookup : Keeps s (beginLookup s) := keeps_beginLookups ..

theorem keeps_endUserOp (r : Nat) : Keeps s (endUserOp r s) := by
  unfold endUserOp
  split
  · exact .refl s
  · exact (keeps_raise ..).after (.of_view rfl)

theorem keeps_beginUserWrite (o : UserWordOp) (slot : Nat) : Keeps s (beginUserWrite o slot s) := .of_view rfl

theorem keeps_compareUserWords (k : Nat) : Keeps s (compareUserWords k s) := by
  unfold compareUserWords
  split
  · exact .refl s
  · split
    · exact .of_view rfl
    · split
      · exact keeps_endUserOp ..
      · split
        · exact keeps_endUserOp ..
        · exact keeps_beginUserWrite ..

theorem keeps_userReadEnd (d : List Byte) : Keeps s (userReadEnd d s) := by
  unfold userReadEnd
  split
  · dsimp only
    split
    · exact .of_view rfl
    · split
      · split
        · exact keeps_endUserOp ..
        · exact keeps_beginUserWrite ..
      · exact keeps_compareUserWords ..
  · exact .refl s

theorem keeps_userWriteEnd : Keeps s (userWriteEnd s) := by
  unfold userWriteEnd
  split
  · split
    · exact .of_view rfl
    · exact (keeps_endUserOp ..).after (.of_view rfl)
  · exact (keeps_endUserOp ..).after (.of_view rfl)
  · exact .refl s

theorem keeps_beginUserOp (k : UserWordKind) (l : List Nat) : Keeps s (beginUserOp k l s) :=
  (keeps_compareUserWords ..).after (.of_view rfl)

theorem keeps_addWord (codes : List Byte) : Keeps s (addWord codes s).1 := by
  unfold addWord
  split
  · exact .refl s
  · dsimp only
    split
    · exact keeps_beginUserOp ..
    · exact .refl s

theorem keeps_removeWord (codes : List Byte) : Keeps s (removeWord codes s).1 := by
  unfold removeWord
  split
  · exact .refl s
  · dsimp only
    split
    · exact keeps_beginUserOp ..
    · exact .refl s

theorem keeps_headerReadEnd (d : List Byte) : Keeps s (headerReadEnd d s) := by
  unfold headerReadEnd headerRead
  split <;> exact .of_view rfl

theorem keeps_indexLoaded : Keeps s (indexLoaded s) := by
  unfold indexLoaded
  dsimp only
  split
  · exact (keeps_becomeAvailable _).after (.of_view rfl)
  all_goals exact (keeps_releaseAdvance _).after ((keeps_becomeUnavailable ..).after (.of_view rfl))

theorem keeps_indexReadEnd (d : List Byte) : Keeps s (indexReadEnd d s) := by
  unfold indexReadEnd
  split
  · dsimp only
    split
    · exact .of_view rfl
    · split
      · exact .of_view rfl
      · exact (keeps_indexLoaded _).after (.of_view rfl)
  · exact .refl s

theorem keeps_closeReadEnd (d : List Byte) : Keeps s (closeReadEnd d s) := by
  unfold closeReadEnd
  dsimp only
  split
  · refine (keeps_raise ..).after ?_
    split
    · exact .of_view rfl
    · exact (keeps_becomeAvailable _).after (.of_view rfl)
  · exact (keeps_raise ..).after (.of_view rfl)

/-! ### The planner -/

theorem keeps_addAtTail {orders : List Order} (h : orders.length ≤ queueRoom s) :
    Keeps s (addAtTail orders s) := by
  refine { Keeps.refl s with orders := fun hbound => ?_ }
  unfold queueRoom Config.strikeQueueMax at h
  show (s.strikeQueue ++ orders).length ≤ 32
  rw [List.length_append]
  omega

theorem keeps_takeWaiting (n : Nat) : ∀ s, Keeps s (takeWaiting n s) := by
  induction n with
  | zero => exact .refl
  | succ n ih =>
    intro s
    unfold takeWaiting
    split
    · exact .refl s
    · next g rest _ =>
      split
      · next hroom =>
        exact (ih _).after ((keeps_setCellState ..).after
          ((keeps_addAtTail { s with correction := { s.correction with waiting := rest } } hroom).after
            (.of_view rfl)))
      · exact .refl s

theorem keeps_handleGroup {b : Built} {c : Cell} {t : State} (h : handleGroup b c s = some t) : Keeps s t := by
  unfold handleGroup at h
  split at h
  · obtain rfl := Option.some.inj h
    exact keeps_modifyCell ..
  · split at h
    · next hroom =>
      obtain rfl := Option.some.inj h
      exact (keeps_addAtTail s hroom).trans (keeps_modifyCell ..)
    · cases h

theorem keeps_planPending {before after : List Cell} {c : Cell} {t : State}
    (h : planPending before c after s = some t) : Keeps s t := by
  unfold planPending at h
  dsimp only at h
  have hstruck {t : State} (h : some (setCellState c.id .struck s) = some t) : Keeps s t := by
    obtain rfl := Option.some.inj h
    exact keeps_setCellState ..
  have hbuild {t : State} (h : (match activeProfile s.wheel with
      | none => none
      | some p => handleGroup (buildGroup s.composer.format s.wheel p before after c) c s) = some t) :
      Keeps s t := by
    split at h
    · cases h
    · exact keeps_handleGroup s h
  split at h
  · exact hstruck h
  · exact keeps_handleGroup s h
  · split at h
    · exact hstruck h
    · split at h
      · cases h
      · split at h
        · cases h
        · split at h
          · exact hbuild h
          · exact hstruck h
  · exact hbuild h
  · exact hbuild h

theorem keeps_planOnce {t : State} (h : planOnce s = some t) : Keeps s t := by
  unfold planOnce at h
  split at h
  · cases h
  · split at h
    · cases h
    · split at h
      · cases h
      · exact keeps_planPending s h

theorem keeps_planCells (n : Nat) : ∀ s, Keeps s (planCells n s) := by
  induction n with
  | zero => exact .refl
  | succ n ih =>
    intro s
    unfold planCells
    split
    · exact .refl s
    · next h => exact (keeps_planOnce s h).trans (ih _)

theorem keeps_supplyQueue : Keeps s (supplyQueue s) := (keeps_takeWaiting ..).trans (keeps_planCells ..)

/-! ### The Print Engine -/

theorem keeps_setEngine (e : Engine) : Keeps s (setEngine e s) := .of_view rfl

theorem keeps_engineReport : Keeps s (engineReport s) := keeps_raise ..

theorem keeps_enterState (x : EngineState) : Keeps s (enterState x s) :=
  (keeps_setEngine ..).trans (keeps_engineReport _)

theorem keeps_takeFault (r : FaultReason) : Keeps s (takeFault r s) := by
  unfold takeFault
  split
  · exact .refl s
  · exact (keeps_enterState ..).after (.of_view rfl)

theorem keeps_beginHoming : Keeps s (beginHoming s) := (keeps_enterState ..).after (keeps_setEngine ..)

theorem keeps_resumeEngine : Keeps s (resumeEngine s) := (keeps_enterState ..).after (keeps_setEngine ..)

theorem length_dropGroup_le (l : List Order) : (dropGroup l).length ≤ l.length := by
  induction l with
  | nil => exact le_rfl
  | cons o l ih =>
    unfold dropGroup
    split
    · exact Nat.le_succ _
    · exact ih.trans (Nat.le_succ _)

theorem length_headGroup_le (l : List Order) : (headGroup l).length ≤ l.length := by
  induction l with
  | nil => exact le_rfl
  | cons o l ih =>
    unfold headGroup
    split
    · simp
    · exact Nat.succ_le_succ ih

theorem keeps_removeGroup (c : Nat) : Keeps s (removeGroup c s) := by
  unfold removeGroup
  dsimp only
  have hshorter : Keeps s { s with strikeQueue := s.strikeQueue.filter fun o => o.cell != c } :=
    .of_orders_le (List.length_filter_le ..)
  split
  · exact (keeps_setEngine ..).after hshorter
  · exact hshorter

theorem keeps_stopQueue : Keeps s (stopQueue s) := by
  refine (keeps_setEngine ..).after (.of_orders_le ?_)
  split
  · exact length_headGroup_le _
  · exact Nat.zero_le _

theorem keeps_refuseLift (x : LiftCheck) (c n : Nat) : Keeps s (refuseLift x c n s) := by
  unfold refuseLift
  split
  · exact .refl s
  · exact (keeps_raise ..).trans (keeps_askSound ..)
  · exact (keeps_raise ..).trans (keeps_askSound ..)

theorem keeps_addAtHead {orders : List Order} (h : orders.length ≤ queueRoom s) :
    Keeps s { s with strikeQueue := orders ++ s.strikeQueue } := by
  refine { Keeps.refl s with orders := fun hbound => ?_ }
  unfold queueRoom Config.strikeQueueMax at h
  show (orders ++ s.strikeQueue).length ≤ 32
  rw [List.length_append]
  omega

theorem keeps_buildDeferred (c : Nat) : Keeps s (buildDeferred c s) := by
  unfold buildDeferred
  split
  · dsimp only
    split
    · exact .of_view rfl
    · split
      · exact (keeps_removeCells ..).after (.of_view rfl)
      · split
        · split
          · next hroom =>
            exact (keeps_setCellState ..).after ((keeps_addAtHead s hroom).trans (.of_view rfl))
          · exact .of_view rfl
        · exact (keeps_refuseLift ..).after (.of_view rfl)
  · exact .refl s

theorem keeps_finishStrikeGroup (c : Nat) : Keeps s (finishStrikeGroup c s) :=
  (keeps_buildDeferred ..).after ((keeps_judgeNote ..).after ((keeps_setCellState ..).after (keeps_setEngine ..)))

theorem keeps_abandonLift (x : LiftCheck) (c : Nat) : Keeps s (abandonLift x c s) :=
  (keeps_refuseLift ..).after ((keeps_setCellState ..).after ((keeps_setEngine ..).after
    (.of_orders_le (length_dropGroup_le _))))

theorem keeps_completeReturn : Keeps s (completeReturn s) := by
  unfold completeReturn
  dsimp only
  exact (keeps_raise ..).after (Keeps.trans (t := removeCells false _ _)
    ((keeps_removeCells ..).after (keeps_setEngine ..)) (.of_view rfl))

theorem keeps_finishLift (c : Nat) : Keeps s (finishLift c s) :=
  (keeps_raise ..).after ((keeps_removeCells ..).after (keeps_setEngine ..))

/-- The order at the head leaves the queue. -/
theorem keeps_takeOrder {o : Order} {rest : List Order} (h : s.strikeQueue = o :: rest) :
    Keeps s { s with strikeQueue := rest } :=
  .of_orders_le (by rw [h]; exact Nat.le_succ _)

theorem keeps_completeOrder : Keeps s (completeOrder s) := by
  unfold completeOrder
  split
  · next p o rest _ hqueue =>
    dsimp only
    have htaken := keeps_takeOrder s hqueue
    have hfired (t : State) (e : Engine) (n : Nat) (f : Cell → Cell) :
        Keeps t (modifyCell o.cell f (setEngine e (addHeat n t))) :=
      (keeps_modifyCell ..).after (.of_view rfl)
    split
    · split
      · exact (keeps_finishStrikeGroup ..).after ((hfired ..).after ((keeps_setEngine ..).after htaken))
      · exact (hfired ..).after ((keeps_setEngine ..).after htaken)
    · split
      · exact (keeps_finishLift ..).after ((hfired ..).after ((keeps_setEngine ..).after htaken))
      · exact (hfired ..).after ((keeps_setEngine ..).after htaken)
    · exact (keeps_completeReturn _).after ((keeps_setEngine ..).after htaken)
  · exact .refl s

theorem keeps_endMoving : Keeps s (endMoving s) := by
  unfold endMoving
  split
  · exact .refl s
  · split
    · split
      · exact keeps_completeOrder s
      · exact keeps_setEngine ..
    · exact .refl s

theorem keeps_beginStrike (p q i : Nat) : Keeps s (beginStrike p q i s) :=
  (keeps_endMoving _).after (keeps_setEngine ..)

theorem keeps_beginReturn (p : Nat) : Keeps s (beginReturn p s) := keeps_setEngine ..

theorem keeps_skipOrder {o : Order} {rest : List Order} (k : StrikeKind) (c : Option Byte)
    (h : s.strikeQueue = o :: rest) : Keeps s (skipOrder o k c rest s) := by
  unfold skipOrder
  dsimp only
  split
  · exact (keeps_finishStrikeGroup ..).after ((keeps_raise ..).after ((keeps_modifyCell ..).after
      ((keeps_setEngine ..).after (keeps_takeOrder s h))))
  · exact (keeps_raise ..).after ((keeps_modifyCell ..).after ((keeps_setEngine ..).after (keeps_takeOrder s h)))

theorem keeps_startOrders (n : Nat) : ∀ s, Keeps s (startOrders n s) := by
  induction n with
  | zero => exact .refl
  | succ n ih =>
    intro s
    unfold startOrders
    split
    · exact .refl s
    · next o rest hqueue =>
      split
      · split
        · dsimp only
          split
          · exact keeps_skipOrder s _ _ hqueue
          · exact (ih _).after (keeps_skipOrder s _ _ hqueue)
        · exact keeps_beginStrike ..
      · split
        · exact keeps_abandonLift ..
        · split
          · exact keeps_abandonLift ..
          · exact keeps_beginStrike ..
      · exact keeps_beginReturn ..

theorem keeps_startOrder : Keeps s (startOrder s) := keeps_startOrders ..

theorem keeps_continueGroup : Keeps s (continueGroup s) := by
  unfold continueGroup
  split
  · exact keeps_startOrder s
  · exact .refl s

theorem keeps_judgeStart : Keeps s (judgeStart s) := by
  unfold judgeStart
  split
  · exact keeps_enterState ..
  · split
    · exact keeps_enterState ..
    · split
      · exact .of_view rfl
      · split
        · exact keeps_setEngine ..
        · exact (keeps_startOrder _).after (keeps_setEngine ..)

theorem keeps_syncRunning : Keeps s (syncRunning s) := by
  unfold syncRunning
  split
  · split <;> exact .of_view rfl
  · split <;> exact .of_view rfl
  · exact .refl s

theorem keeps_settleLoop (n : Nat) : ∀ s, Keeps s (settleLoop n s) := by
  induction n with
  | zero => exact .refl
  | succ n ih =>
    intro s
    unfold settleLoop
    dsimp only
    have hturn := (keeps_supplyQueue s).trans (keeps_syncRunning _)
    split
    · exact (ih _).after (hturn.trans (keeps_judgeStart _))
    · exact hturn

theorem keeps_settle : Keeps s (settle s) := by
  unfold settle
  split
  · dsimp only
    split
    · exact (keeps_engineReport _).after ((keeps_settleLoop ..).after (keeps_setEngine ..))
    · exact (keeps_settleLoop ..).after (keeps_setEngine ..)
  · exact keeps_settleLoop ..

theorem keeps_coverOpened : Keeps s (coverOpened s) := by
  unfold coverOpened
  split
  · exact .refl s
  · exact .refl s
  · exact .refl s
  · dsimp only
    split
    · exact (keeps_completeOrder _).after ((keeps_enterState ..).after (.of_view rfl))
    · exact (keeps_enterState ..).after (.of_view rfl)

theorem keeps_coverClosed : Keeps s (coverClosed s) := by
  unfold coverClosed
  split
  · exact keeps_beginHoming s
  · exact .refl s

/-! ### The end of an event -/

theorem keeps_render : Keeps s (render s) := by
  have hdisplay := render_allowed s
  rw [render_eq] at hdisplay ⊢
  exact { Keeps.refl s with display := hdisplay }

theorem keeps_setWaits (w : Waits) : Keeps s (setWaits w s) := .of_view rfl

theorem keeps_noteHold (c : Byte) : Keeps s (noteHold c s) := by
  unfold noteHold
  split
  · split
    · exact .refl s
    · exact (keeps_zoneEvent ..).after (.of_view rfl)
  · exact .refl s

theorem keeps_judgeHead : Keeps s (judgeHead s) := by
  unfold judgeHead
  split
  · exact keeps_setWaits ..
  · exact (keeps_setWaits ..).trans (keeps_noteHold ..)

theorem keeps_textEnd : Keeps s (textEnd s) :=
  (keeps_render _).after ((keeps_grant _).after ((keeps_judgeHead _).after
    ((keeps_beginLookup _).after (keeps_settle s))))

theorem keeps_chooseFrame : Keeps s (chooseFrame s) := by
  obtain ⟨h, -⟩ | ⟨r, rs, -, -, hreplies, h⟩ | ⟨e, es, -, -, hreplies, -, hreports, h⟩ := chooseFrame_cases s <;> rw [h]
  · exact .refl s
  · exact { Keeps.refl s with replies := by rw [hreplies]; exact Nat.le_succ _ }
  · refine { Keeps.refl s with reports := fun hkinds => ?_ }
    rw [hreports] at hkinds
    exact (List.nodup_cons.mp hkinds).2

theorem keeps_textEvent : Keeps s (textEvent s) := (keeps_textEnd s).trans (keeps_chooseFrame _)

theorem keeps_plainEvent : Keeps s (plainEvent s) := (keeps_render s).trans (keeps_chooseFrame _)

theorem keeps_hunt : Keeps s (hunt s) := .of_view rfl

end

end Sys2Proof.Machine


/-! ## What items and corrections keep -/

namespace Sys2Proof.Machine

section

variable (s : State)

/-! ### Items that create cells -/

theorem length_lt_of_not_lineFull {s : State} {n : Nat} (h : ¬lineFull s (n + 1) = true) :
    s.line.cells.length + n < 200 := by
  have hfits := of_decide_eq_false (Bool.eq_false_of_not_eq_true h)
  unfold Config.cellsMax at hfits
  omega

theorem keeps_refuseLineFull (b : Byte) : Keeps s (refuseLineFull b s) :=
  (keeps_askSound ..).after (keeps_raise ..)

theorem keeps_refuseNotOnWheel (b : Byte) : Keeps s (refuseNotOnWheel b s) :=
  (keeps_askSound ..).after (keeps_raise ..)

theorem keeps_appendCell (c : Cell) (run : List Nat) (h : s.line.cells.length < 200) :
    Keeps s (appendCell c run s) := by
  have hlength : (s.line.cells ++ [c]).length ≤ 200 := by
    rw [List.length_append]
    exact h
  exact { Keeps.refl s with cells := fun _ => hlength }

theorem keeps_releaseEnding (c : Nat) : Keeps s (releaseEnding c s) := by
  unfold releaseEnding
  split
  · exact keeps_releaseTo ..
  · exact .refl s

theorem keeps_releaseLine (c : Nat) : Keeps s (releaseLine c s) := by
  unfold releaseLine
  split
  · exact .refl s
  · exact keeps_releaseTo ..

theorem keeps_createGlyph (k : CellKind) (b : Byte) (x a : Nat) (past : Bool) (h : s.line.cells.length < 200) :
    Keeps s (createGlyph k b x a past s) :=
  (keeps_spellCell ..).after ((keeps_judgeBell ..).after (keeps_appendCell s _ _ h))

theorem keeps_createSpace (x a : Nat) (past : Bool) (h : s.line.cells.length < 200) :
    Keeps s (createSpace x a past s) :=
  (keeps_releaseEnding ..).after ((keeps_spellCell ..).after (keeps_appendCell s _ _ h))

theorem keeps_createTab (x : Nat) (h : s.line.cells.length < 200) : Keeps s (createTab x s) :=
  (keeps_releaseEnding ..).after ((keeps_spellCell ..).after (keeps_appendCell s _ _ h))

theorem keeps_createReturn (h : s.line.cells.length < 200) : Keeps s (createReturn s) :=
  (keeps_releaseLine ..).after ((keeps_spellLineEnd _).after ((keeps_setPrintPoint ..).after
    ((keeps_endLine ..).after (keeps_appendCell s _ _ h))))

/-! ### The wrap -/

theorem length_insertLineEnd (c : Cell) (run : List Nat) (cells : List Cell) :
    (insertLineEnd c run cells).length = cells.length + 1 := by
  have hparts := congrArg List.length (List.takeWhile_append_dropWhile (p := fun d => !run.contains d.id) (l := cells))
  rw [List.length_append] at hparts
  simp only [insertLineEnd, List.length_append, List.length_singleton]
  omega

theorem length_endLine (how : Ending) : (endLine how s).line.cells.length = s.line.cells.length := by
  have hraise (t : State) : (raise .line 2 [] t).line = t.line := by
    unfold raise
    split <;> rfl
  unfold endLine
  dsimp only
  split
  · rw [hraise]
    exact length_replaceEnded (length_alignLine ..)
  · exact length_replaceEnded (length_alignLine ..)

theorem length_placeFrom (l : List Cell) : ∀ p, (placeFrom p l).length = l.length := by
  induction l with
  | nil => intro; rfl
  | cons c l ih => intro p; simp [placeFrom, ih]

theorem endedCells_append_composingCells (cells : List Cell) :
    endedCells cells ++ composingCells cells = cells := by
  cases hindex : lineEndIndex cells with
  | none =>
    have hended : endedCells cells = [] := by
      unfold endedCells
      rw [hindex]
    have hcomposing : composingCells cells = cells := by
      unfold composingCells
      rw [hindex]
    rw [hended, hcomposing, List.nil_append]
  | some i =>
    have hended : endedCells cells = cells.take (i + 1) := by
      unfold endedCells
      rw [hindex]
    have hcomposing : composingCells cells = cells.drop (i + 1) := by
      unfold composingCells
      rw [hindex]
    rw [hended, hcomposing, List.take_append_drop]

theorem length_placeRun : (placeRun s).line.cells.length = s.line.cells.length := by
  have hparts := congrArg List.length (endedCells_append_composingCells s.line.cells)
  simp only [placeRun, List.length_append, length_placeFrom] at hparts ⊢
  exact hparts

theorem length_wrapLine (run : List Nat) : (wrapLine run s).line.cells.length = s.line.cells.length + 1 :=
  (length_endLine ..).trans (length_insertLineEnd ..)

theorem keeps_wrapLine (run : List Nat) (h : s.line.cells.length < 200) : Keeps s (wrapLine run s) := by
  refine (keeps_endLine ..).after { Keeps.refl s with cells := fun _ => ?_, display := correctWindow_allowed s _ }
  exact (length_insertLineEnd ..).trans_le h

theorem keeps_placeRun : Keeps s (placeRun s) := .of_cells_le (length_placeRun s).le

theorem keeps_wrapGlyph (k : CellKind) (b : Byte) (x a : Nat) (h : s.line.cells.length + 1 < 200) :
    Keeps s (wrapGlyph k b x a s) := by
  unfold wrapGlyph
  dsimp only
  have hroom (run : List Nat) : (placeRun (wrapLine run s)).line.cells.length < 200 := by
    rwa [length_placeRun, length_wrapLine]
  exact (keeps_releaseLine ..).after ((keeps_spellCell ..).after ((keeps_spellLineEnd _).after
    ((keeps_judgeBell ..).after ((keeps_appendCell _ _ _ (hroom _)).after ((keeps_placeRun _).after
      (keeps_wrapLine s _ (by omega)))))))

/-! ### The items -/

theorem keeps_takeGlyph (b : Byte) : Keeps s (takeGlyph b s) := by
  unfold takeGlyph
  split
  · exact keeps_refuseNotOnWheel ..
  · split
    · exact keeps_refuseLineFull ..
    · exact keeps_refuseCarriageEnd ..
  · split
    · exact keeps_refuseLineFull ..
    · exact keeps_refuseRightStop ..
  · split
    · exact keeps_refuseLineFull ..
    · exact keeps_refuseRightStop ..
  · split
    · exact keeps_refuseLineFull ..
    · next hroom => exact keeps_createGlyph _ _ _ _ _ _ (length_lt_of_not_lineFull hroom)
  · split
    · exact keeps_refuseLineFull ..
    · next hroom => exact keeps_wrapGlyph _ _ _ _ _ (length_lt_of_not_lineFull hroom)

theorem keeps_takeSpace (b : Byte) : Keeps s (takeSpace b s) := by
  unfold takeSpace
  split
  · exact keeps_refuseLineFull ..
  · next hroom =>
    split
    · exact keeps_refuseCarriageEnd ..
    · exact keeps_createSpace _ _ _ _ (length_lt_of_not_lineFull hroom)

theorem keeps_takeTab (b : Byte) : Keeps s (takeTab b s) := by
  unfold takeTab
  split
  · exact keeps_refuseLineFull ..
  · next hroom =>
    split
    · exact keeps_refuseRightStop ..
    · exact keeps_createTab _ _ (length_lt_of_not_lineFull hroom)

theorem keeps_takeReturn (b : Byte) : Keeps s (takeReturn b s) := by
  unfold takeReturn
  split
  · exact keeps_refuseLineFull ..
  · next hroom => exact keeps_createReturn _ (length_lt_of_not_lineFull hroom)

theorem keeps_removeHeld (c : Cell) : Keeps s (removeHeld c s) :=
  (keeps_setPrintPoint ..).after ((keeps_removeCells ..).after (.of_view rfl))

theorem keeps_takeBackspace (b : Byte) : Keeps s (takeBackspace b s) := by
  unfold takeBackspace
  dsimp only
  split
  · exact (keeps_removeHeld ..).after (keeps_completeOpenWord s)
  · exact (keeps_backUp ..).after (Keeps.trans (keeps_completeOpenWord s) (.of_view rfl))

theorem keeps_takeRelocate : Keeps s (takeRelocate s) := (keeps_completeOpenWord s).trans (.of_view rfl)

theorem keeps_takeBold : Keeps s (takeBold s) := .of_view rfl

theorem keeps_takeUnderline : Keeps s (takeUnderline s) := .of_view rfl

theorem keeps_takeMarginRelease : Keeps s (takeMarginRelease s) := .of_view rfl

theorem keeps_takeUnassigned (b : Byte) : Keeps s (takeUnassigned b s) := keeps_raise ..

/-! ### Corrections -/

theorem keeps_nothingToLift (b : Byte) : Keeps s (nothingToLift b s) := keeps_raise ..

theorem keeps_unreachable (c : Nat) : Keeps s (unreachable c s) := (keeps_raise ..).trans (keeps_askSound ..)

theorem keeps_correctRemoving (c : Cell) : Keeps s (correctRemoving c s).state :=
  (keeps_dropCells ..).trans (keeps_setPrintPoint ..)

theorem keeps_placeLift (g : LiftGroup) : Keeps s (placeLift g s) := by
  unfold placeLift
  split
  · next hroom => exact (keeps_addAtTail s hroom.2).trans (keeps_setCellState ..)
  · exact .of_view rfl

theorem keeps_correctCell (b : Byte) (c : Cell) : Keeps s (correctCell b c s).state := by
  unfold correctCell
  split
  · exact keeps_correctRemoving ..
  · exact keeps_correctRemoving ..
  · split
    · split
      · exact keeps_nothingToLift ..
      · split
        · exact .of_view rfl
        · exact keeps_refuseLift ..
    · exact (keeps_removeGroup ..).trans (keeps_correctRemoving ..)
  · split
    · exact keeps_correctRemoving ..
    · split
      · exact keeps_nothingToLift ..
      · split
        · exact (keeps_placeLift ..).trans (keeps_setPrintPoint ..)
        · exact keeps_refuseLift ..
  · exact keeps_nothingToLift ..

theorem keeps_tellRemoved (l : List Cell) : Keeps s (tellRemoved l s) := by
  unfold tellRemoved
  split
  · exact .refl s
  · exact (keeps_spellRemoved ..).trans (keeps_releaseAdvance _)

theorem keeps_reopenLine (c : Cell) : Keeps s (reopenLine c s) := by
  unfold reopenLine
  dsimp only
  exact (keeps_raise ..).after (Keeps.trans ((keeps_removeGroup ..).trans (keeps_dropCells ..)) (.of_view rfl))

theorem keeps_takeCorrect (b : Byte) : Keeps s (takeCorrect b s) := by
  unfold takeCorrect
  dsimp only
  have hword := keeps_completeOpenWord s
  split
  · exact (keeps_removeHeld ..).after hword
  · split
    · exact (keeps_tellRemoved ..).after ((keeps_correctCell ..).after hword)
    · split
      · exact (keeps_reopenLine ..).after hword
      · exact (keeps_unreachable ..).after hword
    · exact (keeps_unreachable ..).after hword
    · exact (keeps_nothingToLift ..).after ((keeps_backUp ..).after hword)

theorem keeps_correctRun (b : Byte) (l : List Cell) : ∀ s, Keeps s (correctRun b l s).state := by
  induction l with
  | nil => exact .refl
  | cons c l ih =>
    intro s
    unfold correctRun
    split
    · exact ih s
    · dsimp only
      split
      · exact (keeps_correctCell ..).trans (ih _)
      · exact keeps_correctCell ..

theorem keeps_takeWordCorrect (b : Byte) : Keeps s (takeWordCorrect b s) := by
  unfold takeWordCorrect
  dsimp only
  have hword := keeps_completeOpenWord s
  split
  · exact (keeps_nothingToLift ..).after hword
  · exact (keeps_tellRemoved ..).after ((keeps_correctRun ..).after hword)

/-! ### Taking an item -/

theorem keeps_takeHead {b : Byte} {rest : List Byte} (h : s.composer.keyQueue = b :: rest) :
    Keeps s (takeHead rest s) := by
  refine { Keeps.refl s with keyQueue := fun hbound => ?_ }
  rw [h] at hbound
  exact (Nat.le_succ _).trans hbound

theorem keeps_takeItem {accepts : Byte → Bool} {f : Byte → State → State} (h : ∀ b s, Keeps s (f b s)) :
    Keeps s (takeItem accepts f s) := by
  unfold takeItem
  split
  · exact .refl s
  · next hqueue =>
    split
    · split
      · exact keeps_textEvent s
      · exact (keeps_textEvent _).after ((keeps_rearmAfter ..).after ((h ..).after (keeps_takeHead s hqueue)))
    · exact .refl s

end

end Sys2Proof.Machine


/-! ## What events of the memory, of the mechanism and of the timers keep -/

namespace Sys2Proof.Machine

/-! ### Settings -/

theorem mod_alignDown (p k : Nat) : alignDown p k % k = 0 := Nat.mul_mod_left ..

theorem alignDown_le (p k : Nat) : alignDown p k ≤ p := Nat.div_mul_le_self ..

/-- R119: what a watch's fields give lies within its values. -/
theorem Watch.ofFields_allowed {p k kind on : Nat} {w : Watch} (h : Watch.ofFields p k kind on = some w) :
    watchAllowed w := by
  simp only [Watch.ofFields, bind, Option.bind_eq_some_iff] at h
  obtain ⟨kind, -, on, -, h⟩ := h
  split at h
  · next hfields =>
    obtain ⟨hposition, hspan⟩ := hfields
    obtain rfl := Option.some.inj h
    exact ⟨hspan, (alignDown_le p k).trans hposition, mod_alignDown p k⟩
  · cases h

theorem Watch.ofImage_allowed {bs : List Byte} {i : Nat} {w : Watch} (h : Watch.ofImage bs i = some w) :
    watchAllowed w := by
  simp only [Watch.ofImage, bind, Option.bind_eq_some_iff] at h
  obtain ⟨v, hfields, h⟩ := h
  split at h
  · exact Option.some.inj h ▸ Watch.ofFields_allowed hfields
  · cases h

theorem Watch.default_allowed : watchAllowed .default := ⟨.inl rfl, Nat.zero_le _, rfl⟩

theorem length_tabsAt (bs : List Byte) (n : Nat) : ∀ i, (tabsAt bs i n).length = n := by
  induction n with
  | zero => intro; rfl
  | succ n ih => intro i; exact congrArg Nat.succ (ih _)

/-- What `applySettings` needs of a settings record for the Zone Monitor and the sounder. -/
structure Settings.Fits (x : Settings) : Prop where
  increasing : increasing x.tabStops = true
  count : x.tabStops.length ≤ 24
  within : ∀ p ∈ x.tabStops, p ≤ 1800
  watch1 : watchAllowed x.watch1
  watch2 : watchAllowed x.watch2
  volume : x.volume ≤ 3

theorem Settings.default_fits : Settings.default.Fits where
  increasing := rfl
  count := Nat.zero_le _
  within := by simp [Settings.default]
  watch1 := Watch.default_allowed
  watch2 := Watch.default_allowed
  volume := by decide

theorem Settings.ofImage_fits {bs : List Byte} {x : Settings} (h : Settings.ofImage bs = some x) : x.Fits := by
  simp only [Settings.ofImage, bind, Option.bind_eq_some_iff] at h
  obtain ⟨f, -, w1, hw1, w2, hw2, h⟩ := h
  split at h
  · next hvalid =>
    obtain ⟨-, hcount, hincreasing, hwithin, -, -, -, -, hvolume, -⟩ := hvalid
    obtain rfl := Option.some.inj h
    exact {
      increasing := hincreasing
      count := (length_tabsAt ..).trans_le hcount
      within := by simpa using hwithin
      watch1 := Watch.ofImage_allowed hw1
      watch2 := Watch.ofImage_allowed hw2
      volume := hvolume }
  · cases h

section

variable (s : State)

theorem keeps_relatchLeft (n : Nat) : Keeps s (relatchLeft n s) := by
  unfold relatchLeft
  dsimp only
  split
  · exact .of_view rfl
  · exact .refl s

theorem nodup_applyMask (mask : BitVec 16) (l : Link) (h : (l.reports.map fun e => e.kind).Nodup) :
    ((applyMask mask l).reports.map fun e => e.kind).Nodup :=
  h.sublist (List.filter_sublist.map _)

theorem keeps_applySettings {x : Settings} (h : x.Fits) : Keeps s (applySettings x s) := by
  have howners : Keeps s { s with
      composer := { s.composer with format := x.format }
      zone := { s.zone with
        tabStops := x.tabStops, watch1 := x.watch1.disabled, watch2 := x.watch2.disabled }
      wheel := { s.wheel with composites := x.composites }
      display := { s.display with contrast := x.contrast }
      sounder := { s.sounder with volume := x.volume }
      link := applyMask (x.mask ||| 1) s.link } :=
    { Keeps.refl s with
      reports := nodup_applyMask _ s.link
      zone := fun _ => ⟨h.increasing, h.count, h.within, h.watch1, h.watch2⟩
      sounder := fun ⟨_, hrest⟩ => ⟨h.volume, hrest⟩ }
  have hmode := (keeps_spellingModeChanged _ s.composer.format.spelling x.format.spelling).after
    ((keeps_relatchLeft _ s.composer.format.leftMargin).after howners)
  unfold applySettings
  dsimp only
  split
  · exact hmode
  · exact (keeps_releaseAdvance _).after hmode

/-! ### Detection -/

theorem keeps_setMemory (m : MemoryController) : Keeps s (setMemory m s) := .of_view rfl

theorem keeps_startReaders : Keeps s (startReaders s) := by
  unfold startReaders
  split
  · exact (keeps_releaseAdvance _).after ((keeps_becomeUnavailable ..).after (.of_view rfl))
  · exact .of_view rfl

theorem keeps_startEngine : Keeps s (startEngine s) := by
  unfold startEngine
  split
  · exact keeps_enterState ..
  · exact keeps_beginHoming s

theorem keeps_setRendered : Keeps s { s with display := { s.display with rendered := true } } := .of_view rfl

theorem keeps_endDetection {o : Option Settings} (h : ∀ x ∈ o, x.Fits) : Keeps s (endDetection o s) := by
  have hfits : (o.getD .default).Fits := by
    cases o with
    | none => exact Settings.default_fits
    | some x => exact h x rfl
  exact (keeps_setRendered _).after ((keeps_startEngine _).after ((keeps_startReaders _).after
    ((keeps_raise ..).after ((keeps_applySettings _ hfits).after (keeps_setMemory ..)))))

theorem keeps_memoryAbsent : Keeps s (memoryAbsent s) :=
  (keeps_endDetection _ (fun _ h => by cases h)).after (keeps_setMemory ..)

theorem keeps_memoryFound (x : MemoryState) (b : List Byte) : Keeps s (memoryFound x b s) := .of_view rfl

theorem keeps_detectionStep : Keeps s (detectionStep s) := by
  unfold detectionStep
  split
  · exact .refl s
  · exact .of_view rfl
  · dsimp only
    split <;> exact .of_view rfl
  · dsimp only
    split
    · exact keeps_memoryFound ..
    · exact keeps_memoryAbsent s
  · dsimp only
    split
    · exact keeps_setMemory ..
    · exact keeps_endDetection s (fun _ h => Settings.ofImage_fits h)

/-! ### Transactions -/

theorem keeps_readEnd (u : User) (d : List Byte) : Keeps s (readEnd u d s) := by
  cases u
  case directory => exact keeps_directoryReadEnd ..
  case fetch => exact keeps_fetchReadEnd ..
  case dictHeader => exact keeps_headerReadEnd ..
  case indexLoad => exact keeps_indexReadEnd ..
  case lookup => exact keeps_lookupReadEnd ..
  case userWord => exact keeps_userReadEnd ..
  case dictClose => exact keeps_closeReadEnd ..
  all_goals exact .refl s

theorem keeps_saveWriteEnd : Keeps s (saveWriteEnd s) := by
  unfold saveWriteEnd
  split
  · exact .refl s
  · dsimp only
    split
    · exact (keeps_raise ..).after (keeps_setMemory ..)
    · exact .of_view rfl

theorem keeps_dictWriteEnd : Keeps s (dictWriteEnd s) := by
  unfold dictWriteEnd
  split
  · exact .refl s
  · dsimp only
    split
    · exact (keeps_raise ..).after (keeps_setMemory ..)
    · exact .of_view rfl

theorem keeps_protectWriteEnd : Keeps s (protectWriteEnd s) := by
  unfold protectWriteEnd
  split
  · exact .refl s
  · exact (keeps_raise ..).after (keeps_setMemory ..)

theorem keeps_writeEnd (u : User) : Keeps s (writeEnd u s) := by
  cases u
  case store => exact keeps_storeWriteEnd s
  case settings => exact keeps_saveWriteEnd s
  case userWord => exact keeps_userWriteEnd s
  case dictWrite => exact keeps_dictWriteEnd s
  case protect => exact keeps_protectWriteEnd s
  all_goals exact .refl s

theorem Chip.ended_wf (c : Chip) (a : Access) (h : c.cells.wf = true) : (c.ended a).cells.wf = true := by
  cases a
  case write n d => exact Memory.writeAll_wf d n h
  all_goals exact h

theorem Chip.failed_wf (c : Chip) (n : Nat) (a : Access) (h : c.cells.wf = true) :
    (c.failed n a).cells.wf = true := by
  cases a
  case write k d => exact Memory.writeAll_wf _ k h
  all_goals exact h

theorem Chip.reset_wf (c : Chip) (n : Nat) (t : Option Transaction) (h : c.cells.wf = true) :
    (c.reset n t).cells.wf = true := by
  unfold Chip.reset
  dsimp only
  split
  · exact h
  · split
    · exact Chip.ended_wf c _ h
    · exact h

theorem keeps_endTransaction (t : Transaction) : Keeps s (endTransaction t s) := by
  have hended : Keeps s (setMemory { s.memory with current := none }
      { s with chip := s.chip.ended t.request.access }) :=
    { Keeps.refl s with memory := Chip.ended_wf s.chip _ }
  unfold endTransaction
  dsimp only
  split
  · split
    · exact (keeps_writeEnd ..).after hended
    · exact (keeps_readEnd ..).after hended
  · exact hended

theorem keeps_failTransaction (t : Transaction) : Keeps s (failTransaction t s) :=
  (keeps_failWrite ..).after { Keeps.refl s with memory := Chip.failed_wf s.chip s.fresh _ }

/-! ### Sensor inputs, rail and sounder -/

theorem keeps_raiseSensor (n : Nat) (i : Sensor) : Keeps s (raiseSensor n i s) := keeps_raise ..

theorem keeps_acceptEdge (i : Sensor) : Keeps s (acceptEdge i s) := by
  have htold (x : Switch) : Keeps s (tellEdge i x
      (setInput i { s.sensors.get i with debounced := (s.sensors.get i).raw, timer := none } s)) := by
    unfold tellEdge
    split
    · exact (keeps_coverOpened _).after (.of_view rfl)
    · exact (keeps_coverClosed _).after (.of_view rfl)
    all_goals exact .of_view rfl
  unfold acceptEdge
  dsimp only
  split
  · exact (keeps_raiseSensor ..).after (htold _)
  · exact htold _

theorem keeps_speedChanged (n : Nat) : Keeps s (speedChanged n s) := by
  unfold speedChanged
  split
  · exact keeps_setEngine ..
  · exact .refl s

theorem keeps_bandChanged (b : Band) (v r : Nat) : Keeps s (bandChanged b v r s) := by
  unfold bandChanged
  dsimp only
  have hreported (d : List Byte) := (keeps_raise s .supply s.impression.band.code d).trans (keeps_speedChanged _ v)
  split
  · exact (keeps_resumeEngine _).after (hreported _)
  · exact hreported _

theorem nextShot_allowed (now : Nat) {x : Sounder} (h : sounderAllowed x) (hp : x.playing ≠ none) :
    sounderAllowed (nextShot now x) := by
  obtain ⟨hvolume, hlow, hhigh, hstep, hlength, -, htone⟩ := h
  have hsilent : x.tone ≠ true := fun hon => hp (htone hon).1
  unfold nextShot
  split
  · next hqueue =>
    exact ⟨hvolume, hlow, hhigh, hstep, hlength, fun _ => hqueue, fun hon => absurd hon hsilent⟩
  · next o rest hqueue =>
    have hrest : rest.length ≤ 4 := by
      rw [hqueue] at hlength
      exact (Nat.le_succ _).trans hlength
    exact ⟨hvolume, hlow, hhigh, hstep, hrest, (nomatch ·), fun hon => absurd hon hsilent⟩

/-! ### Faults, the encoder and homing -/

theorem keeps_reach (t : Time) : Keeps s (s.reach t) := .of_view rfl

theorem keeps_faultEvent (r : FaultReason) : Keeps s (faultEvent r s) :=
  (keeps_takeFault ..).trans (keeps_plainEvent _)

theorem keeps_countEdge (up : Bool) (c : Int) : Keeps s (countEdge up c s) := by
  unfold countEdge
  generalize (if up then c + 1 else c - 1) = c
  dsimp only
  split
  · exact (keeps_faultEvent ..).after (keeps_setEngine ..)
  · exact keeps_setEngine ..

theorem keeps_searchEdge : Keeps s (searchEdge s) := by
  unfold searchEdge
  dsimp only
  split
  · exact (keeps_faultEvent ..).after (keeps_setEngine ..)
  · exact keeps_setEngine ..

theorem keeps_identify (c : Nat) : Keeps s (identify c s) := by
  unfold identify
  dsimp only
  have hread (e : Engine) : Keeps s (wheelRead c (setEngine e s)) := (keeps_wheelRead ..).after (keeps_setEngine ..)
  split
  · exact (keeps_takeFault ..).after ((keeps_engineReport _).after (hread _))
  · split
    · exact hread _
    · exact (keeps_engineReport _).after (hread _)

end

end Sys2Proof.Machine


/-! ## What requests, frames and resets keep, and the invariants (R1, R10, R65, R118, R119, R130, R143, R172, R177, R179) -/

namespace Sys2Proof.Machine

/-! ### The tab stops and the sounder's settings -/

theorem mem_insertPosition {p x : Nat} {l : List Nat} (h : x ∈ insertPosition p l) : x = p ∨ x ∈ l := by
  induction l with
  | nil => exact .inl (List.mem_singleton.mp h)
  | cons q l ih =>
    unfold insertPosition at h
    split at h
    · exact List.mem_cons.mp h
    · split at h
      · exact .inr h
      · rcases List.mem_cons.mp h with rfl | h
        · exact .inr List.mem_cons_self
        · exact (ih h).imp id (List.mem_cons_of_mem _)

theorem increasing_cons {a : Nat} {l : List Nat} :
    increasing (a :: l) = true ↔ (∀ x ∈ l, a < x) ∧ increasing l = true := by
  induction l generalizing a with
  | nil => simp [increasing]
  | cons b l ih =>
    simp only [increasing, Bool.and_eq_true, decide_eq_true_eq, List.mem_cons, forall_eq_or_imp]
    constructor
    · rintro ⟨hab, hrest⟩
      exact ⟨⟨hab, fun x hx => hab.trans ((ih.mp hrest).1 x hx)⟩, hrest⟩
    · rintro ⟨⟨hab, -⟩, hrest⟩
      exact ⟨hab, hrest⟩

/-- R118: a position put into an increasing list keeps it increasing. -/
theorem increasing_insertPosition (p : Nat) {l : List Nat} (h : increasing l = true) :
    increasing (insertPosition p l) = true := by
  induction l with
  | nil => rfl
  | cons q l ih =>
    obtain ⟨hbelow, hrest⟩ := increasing_cons.mp h
    unfold insertPosition
    split
    · next hlt =>
      exact increasing_cons.mpr ⟨List.forall_mem_cons.mpr ⟨hlt, fun x hx => hlt.trans (hbelow x hx)⟩, h⟩
    · split
      · exact h
      · refine increasing_cons.mpr ⟨fun x hx => ?_, ih hrest⟩
        rcases mem_insertPosition hx with rfl | hx
        · omega
        · exact hbelow x hx

theorem addTabs_cons (p : Nat) (new old : List Nat) :
    addTabs (p :: new) old = addTabs new (insertPosition p old) := rfl

theorem increasing_addTabs (new : List Nat) : ∀ {old}, increasing old = true → increasing (addTabs new old) = true := by
  induction new with
  | nil => exact id
  | cons p new ih => exact fun h => ih (increasing_insertPosition p h)

theorem mem_addTabs {x : Nat} (new : List Nat) : ∀ {old}, x ∈ addTabs new old → x ∈ new ∨ x ∈ old := by
  induction new with
  | nil => exact .inr
  | cons p new ih =>
    intro old h
    rcases ih h with h | h
    · exact .inl (List.mem_cons_of_mem _ h)
    · rcases mem_insertPosition h with rfl | h
      · exact .inl List.mem_cons_self
      · exact .inr h

theorem increasing_filter (f : Nat → Bool) {l : List Nat} (h : increasing l = true) :
    increasing (l.filter f) = true := by
  induction l with
  | nil => rfl
  | cons a l ih =>
    obtain ⟨hbelow, hrest⟩ := increasing_cons.mp h
    rw [List.filter_cons]
    split
    · exact increasing_cons.mpr ⟨fun x hx => hbelow x (List.mem_of_mem_filter hx), ih hrest⟩
    · exact ih hrest

theorem tabList_le {body : List Byte} {l : List Nat} (h : tabList body = some l) : ∀ p ∈ l, p ≤ 1800 := by
  obtain ⟨-, hallowed⟩ := Option.filter_eq_some_iff.mp h
  simp only [Bool.and_eq_true, List.all_eq_true, decide_eq_true_eq] at hallowed
  exact hallowed.2

theorem le_clampNat {lo hi : Nat} (h : lo ≤ hi) (n : Nat) : lo ≤ clampNat lo hi n ∧ clampNat lo hi n ≤ hi := by
  unfold clampNat
  split
  · exact ⟨le_rfl, h⟩
  · split <;> omega

/-- R173: a tone frequency is a multiple of 100 in 400..4000. -/
theorem toneFrequency_allowed (f : Nat) :
    400 ≤ toneFrequency f ∧ toneFrequency f ≤ 4000 ∧ toneFrequency f % 100 = 0 := by
  obtain ⟨hlow, hhigh⟩ := le_clampNat (lo := 400) (hi := 4000) (by decide) f
  unfold toneFrequency
  omega

theorem changeSound_allowed (body : List Byte) {x : Sounder} (h : sounderAllowed x) :
    sounderAllowed (changeSound body x) := by
  obtain ⟨hvolume, hlow, hhigh, hstep, hlength, hqueue, htone⟩ := h
  have hvolume' : (soundFields body x).volume ≤ 3 := by
    unfold soundFields
    dsimp only
    split
    · exact min_le_right _ _
    · exact hvolume
  have hfrequency' : 400 ≤ (soundFields body x).frequency ∧ (soundFields body x).frequency ≤ 4000 ∧
      (soundFields body x).frequency % 100 = 0 := by
    unfold soundFields
    dsimp only
    split
    · exact toneFrequency_allowed _
    · exact ⟨hlow, hhigh, hstep⟩
  obtain ⟨hlow', hhigh', hstep'⟩ := hfrequency'
  unfold changeSound
  dsimp only
  split
  · exact ⟨hvolume', hlow', hhigh', hstep', Nat.zero_le _, fun _ => rfl, fun _ => ⟨rfl, rfl⟩⟩
  · next hkept =>
    refine ⟨hvolume', hlow', hhigh', hstep', hlength, hqueue, fun hon => htone ?_⟩
    rw [hon] at hkept
    cases hx : x.tone
    · simp [hx] at hkept
    · rfl

/-! ### The requests -/

/-- A handler's state keeps the bounds. -/
def KeepsHandler (f : List Byte → State → Handled) : Prop := ∀ body s, Keeps s (f body s).1

theorem KeepsHandler.fixedBody {f : List Byte → State → Handled} (h : KeepsHandler f) (n : Nat) :
    KeepsHandler (fixedBody n f) := by
  intro body s
  unfold Machine.fixedBody
  split
  · exact h body s
  · exact .refl s

theorem keeps_handleType : KeepsHandler handleType := by
  intro body s
  unfold handleType
  split
  · exact .refl s
  · split
    · next hroom =>
      refine (keeps_judgeHead _).after { Keeps.refl s with keyQueue := fun hbound => ?_ }
      unfold keyRoom Config.keyQueueMax at hroom
      show (s.composer.keyQueue ++ body).length ≤ 96
      rw [List.length_append]
      omega
    · exact .refl s

theorem keeps_releaseCarriageLine (s : State) : Keeps s (releaseCarriageLine s) := by
  unfold releaseCarriageLine
  split
  · split
    · exact keeps_releaseTo ..
    · exact .refl s
  · split
    · exact .refl s
    · exact (keeps_releaseTo ..).after (.of_view rfl)

theorem keeps_handleRelease : KeepsHandler handleRelease := fun _ s =>
  (keeps_releaseCarriageLine s).trans (keeps_textEnd _)

theorem keeps_stopAll (s : State) : Keeps s (stopAll s) := by
  have hstopped := keeps_stopQueue s
  exact { hstopped with
    keyQueue := fun _ => Nat.zero_le _
    cells := (List.length_map _).trans_le }

theorem keeps_handleStop : KeepsHandler handleStop := fun _ s => (keeps_stopAll s).trans (keeps_textEnd _)

theorem keeps_passHeld (s : State) : Keeps s (passHeld s) := by
  have hpass : Keeps s { s with zone := { s.zone with holdPass := true } } := .of_view rfl
  unfold passHeld
  dsimp only
  split
  · exact hpass
  · next code rest hqueue =>
    have htaken := hpass.trans (keeps_takeHead { s with zone := { s.zone with holdPass := true } } hqueue)
    split
    · exact hpass
    · split
      · exact (keeps_rearmAfter ..).after ((keeps_takeSpace ..).after htaken)
      · exact (keeps_rearmAfter ..).after ((keeps_takeGlyph ..).after htaken)

theorem keeps_handleResume : KeepsHandler handleResume := by
  intro body s
  have hresumed : Keeps s (if endsPaperPause s then resumeEngine s else s) := by
    split
    · exact keeps_resumeEngine s
    · exact .refl s
  unfold handleResume
  dsimp only
  split
  · refine (keeps_textEnd _).after ?_
    split
    · exact (keeps_passHeld _).after hresumed
    · exact hresumed
  · exact .refl s

theorem keeps_handleHome : KeepsHandler handleHome := by
  intro body s
  unfold handleHome
  split
  · exact .refl s
  · split
    · exact (keeps_render _).after (keeps_beginHoming s)
    · exact .refl s

theorem keeps_beginFeed (n : Int) (s : State) : Keeps s (beginFeed n s) :=
  (keeps_setEngine ..).after ((keeps_raise ..).after (keeps_removeCells ..))

theorem keeps_handleFeed : KeepsHandler handleFeed := by
  intro body s
  unfold handleFeed
  split
  · exact .refl s
  · split
    · exact (keeps_beginFeed ..).trans (keeps_textEnd _)
    · exact .refl s

theorem keeps_rearmZone (f : Format) (s : State) : Keeps s (rearmZone f s) := by
  unfold rearmZone
  split
  · exact keeps_rearmBell s
  · exact .refl s

theorem keeps_changeFormat (f : Format) (s : State) : Keeps s (changeFormat f s) := by
  unfold changeFormat
  dsimp only
  refine (keeps_speedChanged ..).after ((keeps_rearmZone ..).after ((keeps_rearmAfter ..).after ?_))
  have hmode := (keeps_spellingModeChanged _ s.composer.format.spelling f.spelling).after
    ((keeps_relatchLeft _ s.composer.format.leftMargin).after
      (.of_view rfl : Keeps s { s with composer := { s.composer with format := f } }))
  split
  · exact hmode
  · exact (keeps_releaseAdvance _).after hmode

theorem keeps_handleSetFormat : KeepsHandler handleSetFormat := by
  intro body s
  unfold handleSetFormat
  dsimp only
  split
  · exact .refl s
  · exact (keeps_changeFormat ..).trans (keeps_textEnd _)

theorem keeps_setTabStops {l : List Nat} {s : State}
    (h : zoneAllowed s.zone → increasing l = true ∧ l.length ≤ 24 ∧ ∀ p ∈ l, p ≤ 1800) :
    Keeps s (setTabStops l s).1 := by
  refine { Keeps.refl s with zone := fun hzone => ?_ }
  obtain ⟨hincreasing, hcount, hwithin⟩ := h hzone
  obtain ⟨-, -, -, hwatches⟩ := hzone
  exact ⟨hincreasing, hcount, hwithin, hwatches⟩

theorem keeps_handleSetTabs : KeepsHandler handleSetTabs := by
  intro body s
  unfold handleSetTabs
  dsimp only
  split
  · exact .refl s
  · split
    · exact keeps_setTabStops fun _ => ⟨rfl, Nat.zero_le _, by simp⟩
    · split
      · exact .refl s
      · next l hlist =>
        split
        · split
          · exact .refl s
          · next hfits =>
            refine keeps_setTabStops fun ⟨hincreasing, _, hwithin, _⟩ => ?_
            exact ⟨increasing_addTabs l hincreasing, Nat.le_of_not_lt hfits,
              fun p hp => (mem_addTabs l hp).elim (tabList_le hlist p) (hwithin p)⟩
        · split
          · refine keeps_setTabStops fun ⟨hincreasing, hcount, hwithin, _⟩ => ?_
            exact ⟨increasing_filter _ hincreasing, (List.length_filter_le ..).trans hcount,
              fun p hp => hwithin p (List.mem_of_mem_filter hp)⟩
          · exact .refl s

theorem setWatchOf_allowed {n : Nat} {w : Watch} {z : ZoneMonitor} (hw : watchAllowed w) (h : zoneAllowed z) :
    zoneAllowed (setWatchOf n w z) := by
  obtain ⟨hincreasing, hcount, hwithin, hwatch1, hwatch2⟩ := h
  unfold setWatchOf
  split
  · exact ⟨hincreasing, hcount, hwithin, hw, hwatch2⟩
  · exact ⟨hincreasing, hcount, hwithin, hwatch1, hw⟩

theorem keeps_handleSetWatch : KeepsHandler handleSetWatch := by
  intro body s
  unfold handleSetWatch
  dsimp only
  split
  · exact .refl s
  · next hfields =>
    split
    · exact (keeps_judgeHead _).after
        { Keeps.refl s with zone := setWatchOf_allowed (Watch.ofFields_allowed hfields) }
    · exact .refl s

theorem keeps_handleSetReports : KeepsHandler handleSetReports := by
  intro body s
  unfold handleSetReports
  dsimp only
  split
  · exact .refl s
  · exact { Keeps.refl s with reports := nodup_applyMask _ s.link }

theorem keeps_handleSetSound : KeepsHandler handleSetSound := by
  intro body s
  unfold handleSetSound
  split
  · exact .refl s
  · exact { Keeps.refl s with sounder := changeSound_allowed body }

theorem keeps_selectEdges (i : Sensor) (b : Byte) (s : State) : Keeps s (selectEdges i b s) := by
  unfold selectEdges
  split
  · exact .refl s
  · dsimp only
    split
    · exact (keeps_raiseSensor ..).after (.of_view rfl)
    · exact .of_view rfl

theorem keeps_handleSetSensors : KeepsHandler handleSetSensors := by
  intro body s
  unfold handleSetSensors
  split
  · exact .refl s
  · exact (keeps_selectEdges ..).after ((keeps_selectEdges ..).after
      ((keeps_selectEdges ..).after (keeps_selectEdges ..)))

theorem keeps_handleSound : KeepsHandler handleSound := by
  intro body s
  unfold handleSound
  split
  · exact .refl s
  · exact keeps_askSound ..

theorem keeps_handleGetStatus : KeepsHandler handleGetStatus := fun _ => .refl

theorem keeps_handleGetLine : KeepsHandler handleGetLine := by
  intro body s
  unfold handleGetLine
  dsimp only
  split <;> exact .refl s

theorem keeps_handleGetWord : KeepsHandler handleGetWord := by
  intro body s
  unfold handleGetWord
  split
  · exact .refl s
  · split <;> exact .refl s

theorem keeps_handleGetFormat : KeepsHandler handleGetFormat := fun _ => .refl

theorem keeps_handleGetWheel : KeepsHandler handleGetWheel := by
  intro body s
  unfold handleGetWheel
  split <;> exact .refl s

theorem keeps_handleShowMessage : KeepsHandler handleShowMessage := by
  intro body s
  unfold handleShowMessage
  split
  · exact .refl s
  · split
    · exact (keeps_render _).after (.of_view rfl)
    · exact .refl s

theorem keeps_handleClearMessage : KeepsHandler handleClearMessage := by
  intro body s
  unfold handleClearMessage
  split
  · exact .refl s
  · exact (keeps_render _).after (.of_view rfl)

theorem keeps_handleSetContrast : KeepsHandler handleSetContrast := fun _ _ => .of_view rfl

theorem keeps_enterSession (l : List Nat) (s : State) : Keeps s (enterSession l s) := by
  unfold enterSession
  dsimp only
  split <;> exact .of_view rfl

theorem keeps_markAccepted (id : Nat) (s : State) : Keeps s (markAccepted id s) :=
  (keeps_modifyWord ..).trans (keeps_releaseAdvance _)

theorem keeps_acceptWord (id scope : Nat) (s : State) : Keeps s (acceptWord id scope s).1 := by
  have hmarked := keeps_markAccepted id s
  unfold acceptWord
  dsimp only
  split
  · exact (keeps_textEnd _).after hmarked
  · exact (keeps_textEnd _).after ((keeps_enterSession ..).after hmarked)
  · exact (keeps_textEnd _).after ((keeps_addWord ..).after hmarked)

theorem keeps_handleAcceptWord : KeepsHandler handleAcceptWord := by
  intro body s
  unfold handleAcceptWord
  dsimp only
  split
  · exact .refl s
  · split
    · exact .refl s
    · split
      · exact .refl s
      · split
        · exact .refl s
        · exact keeps_acceptWord ..

theorem keeps_handleAddWord : KeepsHandler handleAddWord := fun body s =>
  (keeps_addWord s body).trans (keeps_grant _)

theorem keeps_handleRemoveWord : KeepsHandler handleRemoveWord := fun body s =>
  (keeps_removeWord s body).trans (keeps_grant _)

theorem keeps_setStaging (g : Staging) (s : State) : Keeps s (setStaging g s) := .of_view rfl

theorem keeps_handleLoadWheelBegin : KeepsHandler handleLoadWheelBegin := by
  intro body s
  unfold handleLoadWheelBegin
  split
  · exact .refl s
  · split
    · exact .refl s
    · exact keeps_setStaging ..

theorem keeps_handleLoadWheelPetals : KeepsHandler handleLoadWheelPetals := by
  intro body s
  unfold handleLoadWheelPetals
  split
  · exact .refl s
  · exact .refl s
  · split
    · exact .refl s
    · exact keeps_setStaging ..

theorem keeps_placeStaged (s : State) : Keeps s (placeStaged s) := by
  unfold placeStaged
  dsimp only
  split <;> split
  · exact (keeps_raiseActive ..).after ((keeps_setWheel ..).after ((keeps_setWheel ..).after (keeps_abandonFetch s)))
  · exact (keeps_setWheel ..).after (keeps_abandonFetch s)
  · exact (keeps_raiseActive ..).after ((keeps_setWheel ..).after (keeps_setWheel ..))
  · exact keeps_setWheel ..

theorem keeps_handleLoadWheelEnd : KeepsHandler handleLoadWheelEnd := by
  intro body s
  unfold handleLoadWheelEnd
  dsimp only
  split
  · exact .refl s
  · split
    · exact (keeps_textEnd _).after (Keeps.trans (keeps_placeStaged s) (.of_view rfl))
    · exact (keeps_textEnd _).after ((keeps_setStaging ..).after (keeps_placeStaged s))

theorem keeps_setComposites (l : List Composite) (s : State) : Keeps s (setComposites l s) := .of_view rfl

theorem keeps_handleSetComposite : KeepsHandler handleSetComposite := by
  intro body s
  unfold handleSetComposite
  dsimp only
  split
  · split
    · exact (keeps_judgeHead _).after (keeps_setComposites ..)
    · exact .refl s
  · split
    · exact .refl s
    · split
      · exact .refl s
      · exact (keeps_judgeHead _).after (keeps_setComposites ..)

theorem keeps_handleSaveSettings : KeepsHandler handleSaveSettings := by
  intro body s
  unfold handleSaveSettings
  repeat' split
  case isFalse.isFalse.isFalse.isFalse => exact (keeps_grant _).after (.of_view rfl)
  all_goals exact .refl s

theorem keeps_handleSetProtect : KeepsHandler handleSetProtect := by
  intro body s
  unfold handleSetProtect
  dsimp only
  repeat' split
  case isFalse.isFalse.isFalse.isFalse.isFalse.isFalse => exact (keeps_grant _).after (.of_view rfl)
  all_goals exact .refl s

theorem keeps_openDownload (s : State) : Keeps s (openDownload s) := by
  unfold openDownload
  dsimp only
  split
  · exact .of_view rfl
  · exact (keeps_releaseAdvance _).after ((keeps_becomeUnavailable ..).after (.of_view rfl))

theorem keeps_handleDictOpen : KeepsHandler handleDictOpen := by
  intro body s
  unfold handleDictOpen
  repeat' split
  case isFalse.isFalse.isFalse.isFalse.isFalse => exact (keeps_openDownload s).trans (keeps_textEnd _)
  all_goals exact .refl s

theorem keeps_handleDictWrite : KeepsHandler handleDictWrite := by
  intro body s
  unfold handleDictWrite
  repeat' split
  case isFalse.isFalse.isFalse.isFalse.isFalse => exact (keeps_grant _).after (.of_view rfl)
  all_goals exact .refl s

theorem keeps_handleDictClose : KeepsHandler handleDictClose := by
  intro body s
  unfold handleDictClose
  repeat' split
  case isFalse.isFalse.isFalse => exact (keeps_grant _).after (.of_view rfl)
  all_goals exact .refl s

theorem keeps_handleReset : KeepsHandler handleReset := fun _ _ => .of_view rfl

theorem keeps_handleUnknown : KeepsHandler handleUnknown := fun _ => .refl

/-! ### Frames -/

/-- What a command leads to: bounds kept, and perhaps then one reply or NAK taken into a queue that had room. -/
inductive Effect (s : State) : State → Prop where
  | event {t : State} (h : Keeps s t) : Effect s t
  | answered {t : State} (hroom : s.link.replies.length < 8) (h : Keeps s t) (f : OutFrame) :
      Effect s (chooseFrame (queueFrame f t))

namespace Effect

variable {s t u : State}

theorem after (h : Effect t u) (g : Keeps s t) (hreplies : t.link.replies = s.link.replies) : Effect s u := by
  cases h with
  | event h => exact .event (g.trans h)
  | answered hroom h f => exact .answered (hreplies ▸ hroom) (g.trans h) f

/-- Everything but the reply queue is kept as by `Keeps`, and the reply queue stays within 8. -/
theorem keeps_but_replies (h : Effect s t) : ∃ u, Keeps s u ∧ (s.link.replies.length ≤ 8 → t.link.replies.length ≤ 8) ∧
    Keeps { u with link := { u.link with replies := t.link.replies } } t := by
  cases h with
  | event h => exact ⟨t, h, h.replies.trans, .of_view rfl⟩
  | @answered u hroom h f =>
    have hchosen := keeps_chooseFrame (queueFrame f u)
    have hlength : (queueFrame f u).link.replies.length = u.link.replies.length + 1 := List.length_append
    refine ⟨u, h, fun _ => ?_, { hchosen with replies := le_rfl }⟩
    have hu := h.replies
    have ht := hchosen.replies
    omega

theorem queuesBounded (h : Effect s t) (hs : queuesBounded s) : queuesBounded t := by
  obtain ⟨u, hkeeps, hreplies, hlast⟩ := h.keeps_but_replies
  obtain ⟨hkey, hwaiting, hreports⟩ := hs
  exact ⟨hlast.keyQueue (hkeeps.keyQueue hkey), hreplies hwaiting, hlast.reports (hkeeps.reports hreports)⟩

theorem listsBounded (h : Effect s t) (hs : listsBounded s) : listsBounded t := by
  obtain ⟨u, hkeeps, -, hlast⟩ := h.keeps_but_replies
  obtain ⟨hcells, horders, hchecks⟩ := hs
  exact ⟨hlast.cells (hkeeps.cells hcells), hlast.orders (hkeeps.orders horders),
    hlast.checks (hkeeps.checks hchecks)⟩

theorem memoryCanonical (h : Effect s t) (hs : memoryCanonical s) : memoryCanonical t := by
  obtain ⟨u, hkeeps, -, hlast⟩ := h.keeps_but_replies
  exact hlast.memory (hkeeps.memory hs)

theorem zoneAllowed (h : Effect s t) (hs : zoneAllowed s.zone) : zoneAllowed t.zone := by
  obtain ⟨u, hkeeps, -, hlast⟩ := h.keeps_but_replies
  exact hlast.zone (hkeeps.zone hs)

theorem sounderAllowed (h : Effect s t) (hs : sounderAllowed s.sounder) : sounderAllowed t.sounder := by
  obtain ⟨u, hkeeps, -, hlast⟩ := h.keeps_but_replies
  exact hlast.sounder (hkeeps.sounder hs)

theorem displayAllowed (h : Effect s t) (hs : displayAllowed s.display) : displayAllowed t.display := by
  obtain ⟨u, hkeeps, -, hlast⟩ := h.keeps_but_replies
  exact hlast.display (hkeeps.display hs)

end Effect

section

variable (s : State)

theorem replies_lt_of_not_discards {s : State} (h : discards s = false) : s.link.replies.length < 8 := by
  by_contra hfull
  rw [discards_eq_true_of_not_hears fun ⟨_, _, hroom⟩ => hfull hroom] at h
  cases h

theorem effect_acceptFrame (k t : Byte) {f : List Byte → State → Handled} (hf : KeepsHandler f) (body : List Byte) :
    Effect s (acceptFrame k t f body s) := by
  unfold acceptFrame
  cases h : discards s
  · exact .answered (replies_lt_of_not_discards h) ((keeps_hunt s).trans (hf body _)) _
  · exact .event (keeps_hunt s)

theorem effect_drawNak (t : Byte) (body : List Byte) : Effect s (drawNak t body s) := by
  unfold drawNak
  cases h : discards s
  · exact .answered (replies_lt_of_not_discards h) (.refl s) _
  · exact .event (.refl s)

theorem effect_nakOfHunt (t : Byte) (body : List Byte) : Effect s (drawNak t body (hunt s)) :=
  (effect_drawNak ..).after (keeps_hunt s) rfl

/-- R178: every owner of a request keeps the bounds. -/
theorem keeps_handlerOf {n : Nat} {f : List Byte → State → Handled} (h : handlerOf n = some f) : KeepsHandler f := by
  unfold handlerOf at h
  split at h <;> cases h
  · exact keeps_handleType
  · exact keeps_handleRelease.fixedBody 0
  · exact keeps_handleStop.fixedBody 0
  · exact keeps_handleResume.fixedBody 0
  · exact keeps_handleHome.fixedBody 0
  · exact keeps_handleFeed.fixedBody 1
  · exact keeps_handleSetFormat.fixedBody 15
  · exact keeps_handleSetTabs
  · exact keeps_handleSetWatch.fixedBody 6
  · exact keeps_handleSetReports.fixedBody 2
  · exact keeps_handleSetSound.fixedBody 6
  · exact keeps_handleSetSensors.fixedBody 4
  · exact keeps_handleSound.fixedBody 1
  · exact keeps_handleGetStatus.fixedBody 0
  · exact keeps_handleGetLine.fixedBody 1
  · exact keeps_handleGetWord
  · exact keeps_handleGetFormat.fixedBody 0
  · exact keeps_handleGetWheel.fixedBody 1
  · exact keeps_handleShowMessage
  · exact keeps_handleClearMessage.fixedBody 0
  · exact keeps_handleSetContrast.fixedBody 1
  · exact keeps_handleAcceptWord.fixedBody 2
  · exact keeps_handleAddWord
  · exact keeps_handleRemoveWord
  · exact keeps_handleLoadWheelBegin.fixedBody 4
  · exact keeps_handleLoadWheelPetals
  · exact keeps_handleLoadWheelEnd.fixedBody 1
  · exact keeps_handleSetComposite.fixedBody 3
  · exact keeps_handleSaveSettings.fixedBody 0
  · exact keeps_handleSetProtect.fixedBody 1
  · exact keeps_handleDictOpen.fixedBody 0
  · exact keeps_handleDictWrite.fixedBody 35
  · exact keeps_handleDictClose.fixedBody 0
  · exact keeps_handleReset.fixedBody 0

/-- R178: a request row is the frame of its kind accepted at its owner. -/
theorem exec_of_frame {c : Instr} {k t : Byte} {body : List Byte} (h : c.frame = some (k, t, body)) (s : State) :
    ∃ f, handlerOf k.toNat = some f ∧ exec c s = .next (acceptFrame k t f body s) := by
  cases c <;> cases h <;> exact ⟨_, rfl, rfl⟩

theorem effect_completeFrame (k t : Byte) (body : List Byte) : Effect s (completeFrame k t body s) := by
  unfold completeFrame
  split
  · exact effect_nakOfHunt ..
  · refine effect_acceptFrame _ _ _ ?_ _
    cases h : handlerOf k.toNat with
    | none => exact keeps_handleUnknown
    | some f => exact keeps_handlerOf h

theorem effect_frameByte (b : Byte) : Effect s (frameByte b s) := by
  unfold frameByte
  dsimp only
  split
  · split <;> exact .event (.of_view rfl)
  · split
    · exact effect_nakOfHunt ..
    · exact .event (.of_view rfl)
  · exact .event (.of_view rfl)
  · exact .event (.of_view rfl)
  · exact .event (.of_view rfl)
  · split
    · exact effect_completeFrame ..
    · exact effect_nakOfHunt ..

/-! ### Resets -/

theorem keeps_resetMachine (n : Nat) : Keeps s (resetMachine n s) := by
  refine (keeps_raiseSpell ..).after ((keeps_engineReport _).after ?_)
  exact {
    keyQueue := fun _ => Nat.zero_le _
    replies := Nat.zero_le _
    reports := fun _ => List.nodup_nil
    cells := fun _ => Nat.zero_le _
    orders := fun _ => Nat.zero_le _
    checks := fun _ => Nat.zero_le _
    memory := Chip.reset_wf s.chip _ _
    zone := fun _ => ⟨rfl, Nat.zero_le _, by simp [ZoneMonitor.reset], Watch.default_allowed, Watch.default_allowed⟩
    sounder := fun _ => by simp [sounderAllowed, Sounder.reset]
    display := fun _ => ⟨List.length_replicate, Nat.zero_le _⟩ }

theorem keeps_frameGone (f : OutFrame) : Keeps s (frameGone f s) := by
  unfold frameGone
  dsimp only
  split
  · exact (keeps_chooseFrame _).after ((keeps_resetMachine ..).after (.of_view rfl))
  · exact (keeps_chooseFrame _).after (.of_view rfl)

/-! ### Every command -/

/-- What the invariants need of a step's outcome. -/
def EffectOf (s : State) (o : Host.Outcome State Fault Refusal) : Prop := ∀ t, o = .next t → Effect s t

theorem EffectOf.next {s t : State} (h : Effect s t) : EffectOf s (.next t) := by
  rintro _ ⟨⟩
  exact h

theorem EffectOf.keeps {s t : State} (h : Keeps s t) : EffectOf s (.next t) := .next (.event h)

theorem EffectOf.fault (s : State) (x : Fault) : EffectOf s (.fault x) := by
  intro _ h
  cases h

theorem effectOf_execNakBadLength (n : Byte) : EffectOf s (execNakBadLength n s) := by
  unfold execNakBadLength
  split
  · exact .next (effect_nakOfHunt ..)
  · exact .keeps (.refl s)

theorem effectOf_execBadByte : EffectOf s (execBadByte s) := by
  unfold execBadByte
  split
  · exact .keeps (.refl s)
  · exact .keeps (keeps_hunt s)

theorem effectOf_execGapTimer : EffectOf s (execGapTimer s) := by
  unfold execGapTimer
  split
  · exact .keeps (.refl s)
  · exact .keeps (.of_view rfl)

theorem effectOf_execFrameSent : EffectOf s (execFrameSent s) := by
  unfold execFrameSent
  split
  · exact .keeps (.refl s)
  · exact .keeps ((keeps_reach ..).trans (keeps_frameGone ..))

theorem effectOf_execResetPin : EffectOf s (execResetPin s) := by
  unfold execResetPin
  split
  · exact .keeps (.refl s)
  · exact .keeps (Keeps.trans (keeps_resetMachine s 3) (.of_view rfl))

theorem effectOf_execByteReceived (b : Byte) : EffectOf s (execByteReceived b s) := by
  unfold execByteReceived
  split
  · exact .keeps (.refl s)
  · exact .next (effect_frameByte ..)

theorem effectOf_execResetPinRelease : EffectOf s (execResetPinRelease s) := by
  unfold execResetPinRelease
  split
  · exact .keeps ((keeps_chooseFrame _).after (.of_view rfl))
  · exact .keeps (.refl s)

/-- R3: the item rows take the head item. -/
theorem effectOf_takeItem {accepts : Byte → Bool} {f : Byte → State → State} (h : ∀ b s, Keeps s (f b s)) :
    EffectOf s (.next (takeItem accepts f s)) :=
  .keeps (keeps_takeItem s h)

theorem effectOf_execCycleTimeExpiry : EffectOf s (execCycleTimeExpiry s) := by
  unfold execCycleTimeExpiry
  split
  · exact .keeps ((keeps_textEvent _).after (.of_view rfl))
  · exact .keeps (.refl s)

theorem keeps_orderMoveEnd (o : OrderProgress) : Keeps s (orderMoveEnd o s) := by
  unfold orderMoveEnd
  exact (keeps_endMoving _).after (.of_view rfl)

theorem effectOf_execCarriageMoveEnd : EffectOf s (execCarriageMoveEnd s) := by
  unfold execCarriageMoveEnd
  split
  · exact .keeps (.of_view rfl)
  · split
    · exact .keeps (.refl s)
    · split
      · exact .keeps ((keeps_textEvent _).after (keeps_orderMoveEnd ..))
      · exact .keeps (.refl s)

theorem effectOf_execWheelTurnEnd : EffectOf s (execWheelTurnEnd s) := by
  unfold execWheelTurnEnd
  split
  · exact .keeps (.refl s)
  · split
    · exact .keeps ((keeps_endMoving _).after (.of_view rfl))
    · exact .keeps (.refl s)

theorem effectOf_execPlatenMotionEnd : EffectOf s (execPlatenMotionEnd s) := by
  unfold execPlatenMotionEnd
  split
  · exact .keeps (.refl s)
  · split
    · exact .keeps ((keeps_textEvent _).after ((keeps_endMoving _).after (.of_view rfl)))
    · exact .keeps (.refl s)

theorem effectOf_execSettlingEnd : EffectOf s (execSettlingEnd s) := by
  unfold execSettlingEnd
  split <;> exact .keeps (.of_view rfl)

theorem effectOf_execDriveEnd : EffectOf s (execDriveEnd s) := by
  unfold execDriveEnd
  split <;> exact .keeps (.of_view rfl)

theorem effectOf_execBrakeEnd : EffectOf s (execBrakeEnd s) := by
  unfold execBrakeEnd
  split
  · exact .keeps (.refl s)
  · exact .keeps ((keeps_textEvent _).after ((keeps_continueGroup _).after ((keeps_completeOrder _).after
      (keeps_reach ..))))

theorem effectOf_execCarriageMoveLimit : EffectOf s (execCarriageMoveLimit s) := by
  unfold execCarriageMoveLimit
  split
  · exact .keeps (.refl s)
  · exact .keeps ((keeps_reach ..).trans (keeps_faultEvent ..))

theorem effectOf_execWheelTurnLimit : EffectOf s (execWheelTurnLimit s) := by
  unfold execWheelTurnLimit
  split
  · exact .keeps (.refl s)
  · exact .keeps ((keeps_reach ..).trans (keeps_faultEvent ..))

theorem effectOf_execEncoderEdge (a b : Bool) : EffectOf s (execEncoderEdge a b s) := by
  have hlevels : Keeps s (setEngine { s.engine with channelA := a, channelB := b } s) := keeps_setEngine ..
  unfold execEncoderEdge
  dsimp only
  split
  · refine .keeps ?_
    split
    · exact hlevels
    · exact (keeps_faultEvent ..).after hlevels
  · split
    · exact .keeps (.refl s)
    · split
      · exact .keeps ((keeps_countEdge ..).after hlevels)
      · exact .keeps ((keeps_searchEdge _).after hlevels)

theorem effectOf_execIndexPulse : EffectOf s (execIndexPulse s) := by
  unfold execIndexPulse
  split <;> exact .keeps (.of_view rfl)

theorem effectOf_execCarriageSearchLimit : EffectOf s (execCarriageSearchLimit s) := by
  unfold execCarriageSearchLimit
  split
  · exact .keeps ((keeps_reach ..).trans (keeps_faultEvent ..))
  · exact .keeps (.refl s)

theorem effectOf_execHomeFlagFound : EffectOf s (execHomeFlagFound s) := by
  unfold execHomeFlagFound
  split <;> exact .keeps (.of_view rfl)

theorem effectOf_execWheelCodeRead (code : BitVec 6) : EffectOf s (execWheelCodeRead code s) := by
  unfold execWheelCodeRead
  split
  · exact .keeps ((keeps_identify ..).trans (keeps_textEvent _))
  · exact .keeps (.refl s)

theorem effectOf_execWheelPhaseLimit : EffectOf s (execWheelPhaseLimit s) := by
  unfold execWheelPhaseLimit
  split
  · exact .keeps ((keeps_reach ..).trans (keeps_faultEvent ..))
  · exact .keeps (.refl s)

theorem effectOf_execFeedMotionEnd : EffectOf s (execFeedMotionEnd s) := by
  unfold execFeedMotionEnd
  split
  · exact .keeps ((keeps_textEvent _).after (keeps_setEngine ..))
  · exact .keeps (.refl s)

theorem effectOf_execDebounceExpiry (i : Sensor) : EffectOf s (execDebounceExpiry i s) := by
  unfold execDebounceExpiry
  dsimp only
  split
  · exact .keeps (.refl s)
  · split
    · exact .keeps (.of_view rfl)
    · exact .keeps ((keeps_textEvent _).after ((keeps_acceptEdge ..).after (keeps_reach ..)))

theorem effectOf_execSupplyMeasurement (n : Nat) : EffectOf s (execSupplyMeasurement n s) := by
  unfold execSupplyMeasurement
  dsimp only
  split
  · exact .keeps (.of_view rfl)
  · exact .keeps ((keeps_textEvent _).after ((keeps_bandChanged ..).after (.of_view rfl)))

theorem effectOf_execHeatDecay : EffectOf s (execHeatDecay s) := by
  unfold execHeatDecay
  dsimp only
  split
  · exact .keeps ((keeps_textEvent _).after (.of_view rfl))
  · exact .keeps (.of_view rfl)

theorem effectOf_execOverlayTimer : EffectOf s (execOverlayTimer s) := by
  unfold execOverlayTimer
  split
  · exact .keeps (.refl s)
  · exact .keeps ((keeps_render _).after (.of_view rfl))

theorem effectOf_execOneShotEnd : EffectOf s (execOneShotEnd s) := by
  unfold execOneShotEnd
  split
  · exact .keeps (.refl s)
  · next p hplaying =>
    refine .keeps { Keeps.refl s with sounder := fun h => nextShot_allowed _ h ?_ }
    rw [reach_sounder, hplaying]
    exact Option.some_ne_none p

theorem effectOf_execTransactionEnd : EffectOf s (execTransactionEnd s) := by
  unfold execTransactionEnd
  split
  · exact .keeps ((keeps_detectionStep s).trans (keeps_textEvent _))
  · split
    · exact .keeps (.refl s)
    · split
      · exact .keeps ((keeps_endTransaction ..).trans (keeps_textEvent _))
      · exact .fault s _

theorem effectOf_execWriteBusyLimit : EffectOf s (execWriteBusyLimit s) := by
  unfold execWriteBusyLimit
  split
  · split
    · exact .keeps ((keeps_textEvent _).after ((keeps_failTransaction ..).after (keeps_reach ..)))
    · exact .keeps (.refl s)
  · exact .keeps (.refl s)

theorem effectOf_execBusyClear : EffectOf s (execBusyClear s) := by
  unfold execBusyClear
  split
  · exact .keeps ((keeps_textEvent _).after (.of_view rfl))
  · exact .keeps (.refl s)

theorem effectOf_execDetectionPollLimit : EffectOf s (execDetectionPollLimit s) := by
  unfold execDetectionPollLimit
  split <;> exact .keeps (.of_view rfl)

/-- Every command keeps the bounds, or answers into a reply queue with room. -/
theorem effectOf_exec (c : Instr) : EffectOf s (exec c s) := by
  cases hframe : c.frame with
  | some frame =>
    obtain ⟨k, t, body⟩ := frame
    obtain ⟨f, hf, hexec⟩ := exec_of_frame hframe s
    rw [hexec]
    exact .next (effect_acceptFrame s k t (keeps_handlerOf hf) body)
  | none =>
    cases c
    case unknownKind => exact .next (effect_completeFrame ..)
    case nakBadCheck => exact .next (effect_nakOfHunt ..)
    case nakBadKind => exact .next (effect_completeFrame ..)
    case nakBadLength => exact effectOf_execNakBadLength s _
    case badByte => exact effectOf_execBadByte s
    case gapTimer => exact effectOf_execGapTimer s
    case frameSent => exact effectOf_execFrameSent s
    case resetPin => exact effectOf_execResetPin s
    case glyphItem => exact effectOf_takeItem s fun b s => keeps_takeGlyph s b
    case spaceItem => exact effectOf_takeItem s fun b s => keeps_takeSpace s b
    case tabItem => exact effectOf_takeItem s fun b s => keeps_takeTab s b
    case returnItem => exact effectOf_takeItem s fun b s => keeps_takeReturn s b
    case backspaceItem => exact effectOf_takeItem s fun b s => keeps_takeBackspace s b
    case relocateItem => exact effectOf_takeItem s fun _ => keeps_takeRelocate
    case boldItem => exact effectOf_takeItem s fun _ => keeps_takeBold
    case underlineItem => exact effectOf_takeItem s fun _ => keeps_takeUnderline
    case marginReleaseItem => exact effectOf_takeItem s fun _ => keeps_takeMarginRelease
    case correctItem => exact effectOf_takeItem s fun b s => keeps_takeCorrect s b
    case wordCorrectItem => exact effectOf_takeItem s fun b s => keeps_takeWordCorrect s b
    case unassignedItem => exact effectOf_takeItem s fun b s => keeps_takeUnassigned s b
    case cycleTimeExpiry => exact effectOf_execCycleTimeExpiry s
    case carriageMoveEnd => exact effectOf_execCarriageMoveEnd s
    case wheelTurnEnd => exact effectOf_execWheelTurnEnd s
    case platenMotionEnd => exact effectOf_execPlatenMotionEnd s
    case settlingEnd => exact effectOf_execSettlingEnd s
    case driveEnd => exact effectOf_execDriveEnd s
    case brakeEnd => exact effectOf_execBrakeEnd s
    case carriageMoveLimit => exact effectOf_execCarriageMoveLimit s
    case wheelTurnLimit => exact effectOf_execWheelTurnLimit s
    case encoderEdge => exact effectOf_execEncoderEdge s _ _
    case indexPulse => exact effectOf_execIndexPulse s
    case carriageSearchLimit => exact effectOf_execCarriageSearchLimit s
    case homeFlagFound => exact effectOf_execHomeFlagFound s
    case wheelCodeRead => exact effectOf_execWheelCodeRead s _
    case wheelPhaseLimit => exact effectOf_execWheelPhaseLimit s
    case feedMotionEnd => exact effectOf_execFeedMotionEnd s
    case rawLevelChange => exact .keeps (.of_view rfl)
    case debounceExpiry => exact effectOf_execDebounceExpiry s _
    case supplyMeasurement => exact effectOf_execSupplyMeasurement s _
    case heatDecay => exact effectOf_execHeatDecay s
    case wordBlink => exact .keeps ((keeps_render _).after (.of_view rfl))
    case cursorBlink => exact .keeps ((keeps_render _).after (.of_view rfl))
    case overlayTimer => exact effectOf_execOverlayTimer s
    case oneShotEnd => exact effectOf_execOneShotEnd s
    case transactionEnd => exact effectOf_execTransactionEnd s
    case writeBusyLimit => exact effectOf_execWriteBusyLimit s
    case busyClear => exact effectOf_execBusyClear s
    case detectionPollLimit => exact effectOf_execDetectionPollLimit s
    case byteReceived => exact effectOf_execByteReceived s _
    case resetPinRelease => exact effectOf_execResetPinRelease s
    all_goals cases hframe

end

/-- Every step keeps the bounds, or answers into a reply queue with room. -/
theorem effect_of_step {s t : State} (h : step s = .next t) : Effect s t := by
  unfold step at h
  split at h
  · unfold idle at h
    split at h
    · exact (effectOf_exec _ _ t h).after (.of_view rfl) rfl
    · cases h
      exact .event (.of_view rfl)
  · exact (effectOf_exec _ _ t h).after (.of_view rfl) rfl

/-- Settles O57. -/
theorem every_step_keeps_the_queues_bounded : Obligations.every_step_keeps_the_queues_bounded :=
  fun _ _ hs h => (effect_of_step h).queuesBounded hs

/-- Settles O58. -/
theorem every_step_keeps_cells_orders_and_checks_bounded :
    Obligations.every_step_keeps_cells_orders_and_checks_bounded :=
  fun _ _ hs h => (effect_of_step h).listsBounded hs

/-- Settles O59. -/
theorem every_step_keeps_the_memory_canonical : Obligations.every_step_keeps_the_memory_canonical :=
  fun _ _ hs h => (effect_of_step h).memoryCanonical hs

/-- Settles O60. -/
theorem every_step_keeps_zone_sounder_and_display : Obligations.every_step_keeps_zone_sounder_and_display :=
  ⟨fun _ _ hs h => (effect_of_step h).zoneAllowed hs, fun _ _ hs h => (effect_of_step h).sounderAllowed hs,
    fun _ _ hs h => (effect_of_step h).displayAllowed hs⟩

end Sys2Proof.Machine


/-! ## Steps, the stopping of a command, and the state after reset -/

namespace Sys2Proof.Machine

/-- Settles O1. -/
theorem step_runs_the_front_command_or_idles : Obligations.step_runs_the_front_command_or_idles := by
  have hidle {s : State} (hpending : s.pending = []) : step s = idle s := by rw [step, hpending]
  refine ⟨fun c rest s hpending => ?front, fun s hpending => ⟨fun c hdue => ?due, fun hdue => ?tick⟩⟩
  case front => rw [step, hpending]
  case due => rw [hidle hpending, idle, hdue]
  case tick => rw [hidle hpending, idle, hdue, tick]

/-- Settles O4: each value is the one that the reset of its block writes. -/
theorem state_after_reset_holds_the_reset_values : Obligations.state_after_reset_holds_the_reset_values := by
  refine ⟨⟨?values, rfl⟩, ?queues, State.reset_memory_wf, ?zone, ?sounder, ?display, ?lists⟩
  case values =>
    have hsensors (i : Sensor) : State.reset.sensors.get i =
        { debounced := (State.reset.sensors.get i).raw, raw := (State.reset.sensors.get i).raw, timer := none,
          selection := .both } := by
      cases i <;> rfl
    unfold standsAfterReset
    and_intros
    any_goals rfl
    exact hsensors
  case queues => exact ⟨Nat.zero_le _, Nat.zero_le _, List.nodup_singleton _⟩
  case zone => exact ⟨rfl, Nat.zero_le _, nofun, Watch.default_allowed, Watch.default_allowed⟩
  case sounder => exact ⟨by decide, by decide, by decide, rfl, Nat.zero_le _, fun _ => rfl, fun _ => ⟨rfl, rfl⟩⟩
  case display => exact ⟨rfl, Nat.zero_le _⟩
  case lists => exact ⟨Nat.zero_le _, Nat.zero_le _, Nat.zero_le _⟩

/-! ### What stops -/

/-- R157, log entry 14: of the commands TRANSACTION_END alone can stop. -/
theorem exec_answers {c : Instr} (h : c ≠ .transactionEnd) (s : State) : ∃ t, exec c s = .next t := by
  cases hframe : c.frame with
  | some frame =>
    obtain ⟨k, t, body⟩ := frame
    obtain ⟨f, -, hexec⟩ := exec_of_frame hframe s
    exact ⟨_, hexec⟩
  | none =>
    cases c
    case transactionEnd => exact absurd rfl h
    case nakBadLength => unfold exec execNakBadLength; dsimp only; split <;> exact ⟨_, rfl⟩
    case badByte => unfold exec execBadByte; dsimp only; split <;> exact ⟨_, rfl⟩
    case gapTimer => unfold exec execGapTimer; dsimp only; split <;> exact ⟨_, rfl⟩
    case frameSent => unfold exec execFrameSent; dsimp only; split <;> exact ⟨_, rfl⟩
    case resetPin => unfold exec execResetPin; dsimp only; split <;> exact ⟨_, rfl⟩
    case resetPinRelease => unfold exec execResetPinRelease; dsimp only; split <;> exact ⟨_, rfl⟩
    case byteReceived => unfold exec execByteReceived; dsimp only; split <;> exact ⟨_, rfl⟩
    case cycleTimeExpiry => unfold exec execCycleTimeExpiry; dsimp only; split <;> exact ⟨_, rfl⟩
    case carriageMoveEnd =>
      unfold exec execCarriageMoveEnd
      dsimp only
      split
      · exact ⟨_, rfl⟩
      · split
        · exact ⟨_, rfl⟩
        · split <;> exact ⟨_, rfl⟩
    case wheelTurnEnd =>
      unfold exec execWheelTurnEnd
      dsimp only
      split
      · exact ⟨_, rfl⟩
      · split <;> exact ⟨_, rfl⟩
    case platenMotionEnd =>
      unfold exec execPlatenMotionEnd
      dsimp only
      split
      · exact ⟨_, rfl⟩
      · split <;> exact ⟨_, rfl⟩
    case settlingEnd => unfold exec execSettlingEnd; dsimp only; split <;> exact ⟨_, rfl⟩
    case driveEnd => unfold exec execDriveEnd; dsimp only; split <;> exact ⟨_, rfl⟩
    case brakeEnd => unfold exec execBrakeEnd; dsimp only; split <;> exact ⟨_, rfl⟩
    case carriageMoveLimit => unfold exec execCarriageMoveLimit; dsimp only; split <;> exact ⟨_, rfl⟩
    case wheelTurnLimit => unfold exec execWheelTurnLimit; dsimp only; split <;> exact ⟨_, rfl⟩
    case encoderEdge =>
      unfold exec execEncoderEdge
      dsimp only
      split
      · exact ⟨_, rfl⟩
      · split
        · exact ⟨_, rfl⟩
        · split <;> exact ⟨_, rfl⟩
    case indexPulse => unfold exec execIndexPulse; dsimp only; split <;> exact ⟨_, rfl⟩
    case carriageSearchLimit => unfold exec execCarriageSearchLimit; dsimp only; split <;> exact ⟨_, rfl⟩
    case homeFlagFound => unfold exec execHomeFlagFound; dsimp only; split <;> exact ⟨_, rfl⟩
    case wheelCodeRead => unfold exec execWheelCodeRead; dsimp only; split <;> exact ⟨_, rfl⟩
    case wheelPhaseLimit => unfold exec execWheelPhaseLimit; dsimp only; split <;> exact ⟨_, rfl⟩
    case feedMotionEnd => unfold exec execFeedMotionEnd; dsimp only; split <;> exact ⟨_, rfl⟩
    case debounceExpiry =>
      unfold exec execDebounceExpiry
      dsimp only
      split
      · exact ⟨_, rfl⟩
      · split <;> exact ⟨_, rfl⟩
    case supplyMeasurement => unfold exec execSupplyMeasurement; dsimp only; split <;> exact ⟨_, rfl⟩
    case heatDecay => unfold exec execHeatDecay; dsimp only; split <;> exact ⟨_, rfl⟩
    case overlayTimer => unfold exec execOverlayTimer; dsimp only; split <;> exact ⟨_, rfl⟩
    case oneShotEnd => unfold exec execOneShotEnd; dsimp only; split <;> exact ⟨_, rfl⟩
    case writeBusyLimit =>
      unfold exec execWriteBusyLimit
      dsimp only
      split
      · split <;> exact ⟨_, rfl⟩
      · exact ⟨_, rfl⟩
    case busyClear => unfold exec execBusyClear; dsimp only; split <;> exact ⟨_, rfl⟩
    case detectionPollLimit => unfold exec execDetectionPollLimit; dsimp only; split <;> exact ⟨_, rfl⟩
    all_goals exact ⟨_, rfl⟩

theorem detecting_eq_false_iff (m : MemoryController) : m.detecting = false ↔ m.detection = .none := by
  simp [MemoryController.detecting]

/-- R155, R157, R158: TRANSACTION_END by its cases. -/
theorem execTransactionEnd_of_none {s : State} (hd : s.memory.detection = .none) (hc : s.memory.current = none) :
    execTransactionEnd s = .next s := by
  simp [execTransactionEnd, (detecting_eq_false_iff _).mpr hd, hc]

theorem execTransactionEnd_of_within {s : State} {t : Transaction} (hd : s.memory.detection = .none)
    (hc : s.memory.current = some t) (hw : t.request.access.within (endOfMemory s.memory.sizeCode) = true) :
    execTransactionEnd s = .next (textEvent (endTransaction t s)) := by
  simp [execTransactionEnd, (detecting_eq_false_iff _).mpr hd, hc, hw]

theorem execTransactionEnd_of_outside {s : State} {t : Transaction} (hd : s.memory.detection = .none)
    (hc : s.memory.current = some t) (hw : t.request.access.within (endOfMemory s.memory.sizeCode) = false) :
    execTransactionEnd s = .fault .pastEndOfMemory := by
  simp [execTransactionEnd, (detecting_eq_false_iff _).mpr hd, hc, hw]

theorem execTransactionEnd_of_detecting {s : State} (hd : s.memory.detection ≠ .none) :
    execTransactionEnd s = .next (textEvent (detectionStep s)) := by
  simp [execTransactionEnd, MemoryController.detecting, hd]

/-- Settles O2: every other command answers, and a TRANSACTION_END answers in detection, with no transaction in hand,
and where the one in hand lies within the memory. -/
theorem only_a_transaction_past_the_end_of_memory_stops :
    Obligations.only_a_transaction_past_the_end_of_memory_stops := by
  intro c s
  constructor
  · rintro ⟨rfl, hd, houtside⟩
    obtain ⟨t, hc, hw⟩ : ∃ t, s.memory.current = some t ∧
        t.request.access.within (endOfMemory s.memory.sizeCode) = false := by
      simpa [transactionWithin, Option.all_eq_false] using houtside
    exact execTransactionEnd_of_outside hd hc hw
  · intro hnot
    by_cases hend : c = .transactionEnd
    · subst hend
      by_cases hd : s.memory.detection = .none
      · cases hc : s.memory.current with
        | none => exact ⟨_, execTransactionEnd_of_none hd hc⟩
        | some t =>
          have hw : t.request.access.within (endOfMemory s.memory.sizeCode) = true := by
            by_contra houtside
            exact hnot ⟨rfl, hd, by simpa [transactionWithin, hc] using houtside⟩
          exact ⟨_, execTransactionEnd_of_within hd hc hw⟩
      · exact ⟨_, execTransactionEnd_of_detecting hd⟩
    · exact exec_answers hend s

end Sys2Proof.Machine


/-! ## The transmit line, the report queue and the resets (R177, R179, R181 to R183) -/

namespace Sys2Proof.Machine

section

variable {s : State}

/-! ### The line's choice, case by case -/

theorem chooseFrame_of_sending (h : s.link.transmit ≠ none) : chooseFrame s = s := by
  simp [chooseFrame, h]

theorem chooseFrame_of_reply {r : OutFrame} {rs : List OutFrame} (hpin : s.pins.resetLow = false)
    (hline : s.link.transmit = none) (hreplies : s.link.replies = r :: rs) :
    chooseFrame s = { s with link := { s.link with
      replies := rs
      transmit := some { frame := r, ends := s.now + lineTime s.link.rate (5 + r.body.length) } } } := by
  simp [chooseFrame, hpin, hline, hreplies, sendFrame, setLink]

theorem chooseFrame_of_report {e : ReportEntry} {es : List ReportEntry} (hpin : s.pins.resetLow = false)
    (hline : s.link.transmit = none) (hreplies : s.link.replies = []) (hreset : s.link.resetPending = false)
    (hreports : s.link.reports = e :: es) :
    chooseFrame s = { s with link := { s.link with
      reports := es
      transmit := some
        { frame := reportFrame s e, ends := s.now + lineTime s.link.rate (5 + (reportFrame s e).body.length) } } } := by
  simp [chooseFrame, hpin, hline, hreplies, hreset, hreports, sendFrame, setLink]

theorem chooseFrame_of_idle (hreplies : s.link.replies = [])
    (hreports : s.link.reports = []) : chooseFrame s = s := by
  simp [chooseFrame, hreplies, hreports]

/-- R181: FRAME_SENT with a frame on the line. -/
theorem exec_frameSent {x : Sending} (h : s.link.transmit = some x) :
    exec .frameSent s = .next (frameGone x.frame (s.reach x.ends)) := by
  simp [exec, execFrameSent, h]

/-! ### Replies -/

/-- R177: the reply's frame takes the tail of the reply queue, and the line chooses. -/
theorem reply_eq (kind tag : Byte) (u : State) (a : Answer) :
    reply kind tag (u, a) = chooseFrame { u with link := { u.link with
      replies := u.link.replies ++ [{ kind := 0x80 + kind, tag := tag, body := byte a.status.code :: a.data }] } } :=
  rfl

theorem reply_of_idle (kind tag : Byte) (a : Answer) (hpin : s.pins.resetLow = false)
    (hline : s.link.transmit = none) (hreplies : s.link.replies = []) :
    reply kind tag (s, a) = { s with link := { s.link with
      transmit := some
        { frame := { kind := 0x80 + kind, tag := tag, body := byte a.status.code :: a.data }
          ends := s.now + lineTime s.link.rate (6 + a.data.length) } } } := by
  let f : OutFrame := { kind := 0x80 + kind, tag := tag, body := byte a.status.code :: a.data }
  let u : State := { s with link := { s.link with replies := s.link.replies ++ [f] } }
  have hqueue : u.link.replies = f :: [] := by simp only [u, hreplies, List.nil_append]
  have hlength : 5 + f.body.length = 6 + a.data.length := by simp only [f, List.length_cons]; omega
  have hchosen := chooseFrame_of_reply (s := u) hpin hline hqueue
  rw [hlength] at hchosen
  rw [reply_eq, hchosen, ← hreplies]

theorem reply_of_sending (kind tag : Byte) (a : Answer) (hline : s.link.transmit ≠ none) :
    reply kind tag (s, a) = { s with link := { s.link with
      replies := s.link.replies ++
        [{ kind := 0x80 + kind, tag := tag, body := byte a.status.code :: a.data }] } } :=
  chooseFrame_of_sending hline

theorem reply_of_waiting (kind tag : Byte) (a : Answer) {r : OutFrame} {rs : List OutFrame}
    (hpin : s.pins.resetLow = false) (hline : s.link.transmit = none) (hreplies : s.link.replies = r :: rs) :
    reply kind tag (s, a) = { s with link := { s.link with
      replies := rs ++ [{ kind := 0x80 + kind, tag := tag, body := byte a.status.code :: a.data }]
      transmit := some { frame := r, ends := s.now + lineTime s.link.rate (5 + r.body.length) } } } := by
  let f : OutFrame := { kind := 0x80 + kind, tag := tag, body := byte a.status.code :: a.data }
  let u : State := { s with link := { s.link with replies := s.link.replies ++ [f] } }
  have hqueue : u.link.replies = r :: (rs ++ [f]) := by simp only [u, hreplies, List.cons_append]
  exact chooseFrame_of_reply (s := u) hpin hline hqueue

end

/-- R181: what a report adds does not hang on the clock or the link. -/
theorem currentState_congr (s : State) (n : Time) (l : Link) (k : ReportKind) :
    currentState { s with now := n, link := l } k = currentState s k := by
  cases k <;> rfl

/-- Settles O5: the line's choice and the reply's place in their cases. -/
theorem line_sends_replies_before_reports : Obligations.line_sends_replies_before_reports := by
  refine ⟨fun s x hline hpin => ?sent, fun kind tag a u hpin => ?reply⟩
  case sent =>
    have hgone (h : s.link.resetPending = false ∨ x.frame.kind ≠ 0xFF ∨ x.frame.body ≠ [0]) :
        exec .frameSent s = .next (chooseFrame { s with
          now := max s.now x.ends, link := { s.link with transmit := none } }) := by
      exact (exec_frameSent hline).trans (congrArg _ (frameGone_of_other (s.reach x.ends) h))
    refine ⟨fun r rs hreplies hother => ?_, fun e es hreplies hreset hreports => ?_,
      fun hreplies hreset hreports => ?_⟩
    · rw [hgone hother]
      exact congrArg _ (chooseFrame_of_reply hpin rfl hreplies)
    · refine ⟨reportFrame { s with now := max s.now x.ends, link := { s.link with transmit := none } } e, rfl, rfl,
        ?_, ?_⟩
      · simp only [reportFrame, currentState_congr]
        rfl
      · rw [hgone (.inl hreset)]
        exact congrArg _ (chooseFrame_of_report hpin rfl hreplies hreset hreports)
    · rw [hgone (.inl hreset)]
      exact congrArg _ (chooseFrame_of_idle hreplies hreports)
  case reply =>
    exact ⟨reply_of_idle kind tag a hpin, reply_of_sending kind tag a,
      fun r rs => reply_of_waiting kind tag a hpin⟩

/-! ### The report queue -/

theorem coalesce_of_absent {k : ReportKind} (r : Nat) (d : List Byte) {q : List ReportEntry}
    (h : ∀ e ∈ q, e.kind ≠ k) :
    coalesce k r d q = q ++ [{ kind := k, occurrences := 1, reason := r, detail := d }] :=
  if_neg (by simpa using h)

theorem coalesce_of_present (r : Nat) (d : List Byte) {before after : List ReportEntry} {e : ReportEntry}
    (h : ∀ x ∈ before ++ after, x.kind ≠ e.kind) :
    coalesce e.kind r d (before ++ e :: after) =
      before ++ { kind := e.kind, occurrences := min 255 (e.occurrences + 1), reason := r, detail := d } :: after := by
  have hkept {l : List ReportEntry} (hl : ∀ x ∈ l, x.kind ≠ e.kind) :
      (l.map fun x => if x.kind = e.kind then
        { x with occurrences := min 255 (x.occurrences + 1), reason := r, detail := d } else x) = l :=
    (List.map_congr_left fun x hx => if_neg (hl x hx)).trans (List.map_id' l)
  obtain ⟨hbefore, hafter⟩ := List.forall_mem_append.mp h
  have hany : (before ++ e :: after).any (fun x => x.kind == e.kind) = true := by simp
  rw [coalesce, if_pos hany, List.map_append, List.map_cons, hkept hbefore, hkept hafter, if_pos rfl]

/-- Settles O6. -/
theorem report_queue_coalesces_by_kind : Obligations.report_queue_coalesces_by_kind := by
  refine ⟨fun k r d s => ⟨fun hmasked => ?masked, fun hmask habsent => ?absent,
    fun before e after hmask hreports hkind hother => ?present⟩, fun s => ?adds⟩
  case masked => rw [raise, hmasked]; rfl
  case absent => rw [raise, if_pos hmask, coalesce_of_absent r d habsent]
  case present =>
    subst hkind
    rw [raise, if_pos hmask, hreports, coalesce_of_present r d hother]
  case adds =>
    have hopt : optByte s.engine.wheelPosition = (s.engine.wheelPosition.map byte).getD 0xFF := by
      cases s.engine.wheelPosition <;> rfl
    have hwords : (unknownWords s.spelling.words).length =
        s.spelling.words.countP fun w => w.state = .unknown ∧ w.accepted = false := by
      rw [unknownWords, List.countP_eq_length_filter]
      congr 2
      funext w
      simp [Bool.decide_and, beq_eq_decide]
    have hsensor (i : Sensor) : byte (switchCode (s.sensors.get i).debounced) =
        if s.sensors.isOpen i then 0 else 1 := by
      rw [Sensors.isOpen]
      cases (s.sensors.get i).debounced <;> rfl
    refine ⟨rfl, ?_, rfl, rfl, ?_, rfl, ?_, rfl, ?_, fun p hp => ?_, fun hp => ?_, rfl⟩
    · simp only [currentState, hopt]
    · simp only [currentState, hwords]
    · simp only [List.map_cons, List.map_nil, ← hsensor]
      rfl
    · simp only [currentState, boolCode]
      cases s.memory.downloadOpen <;> rfl
    · simp only [currentState, activeCode, hp, Option.map_some, Option.getD_some]
    · simp only [currentState, activeCode, hp, Option.map_none, Option.getD_none]
      rfl

/-! ### Resets -/

/-- R183: after a reset every report kind is unmasked. -/
theorem resetMask_getLsbD (p : Pins) (k : ReportKind) : (Link.reset p).mask.getLsbD k.index = true := by
  show (0x07FF : BitVec 16).getLsbD k.index = true
  cases k <;> decide

theorem raise_of_reported {k : ReportKind} {s : State} (r : Nat) (d : List Byte)
    (h : s.link.mask.getLsbD k.index = true) :
    raise k r d s = { s with link := { s.link with reports := coalesce k r d s.link.reports } } :=
  if_pos h

/-- R182, R183: the two reports of a reset, on top of the reset values. -/
theorem resetMachine_eq (p : Nat) (s : State) :
    resetMachine p s = { s with
      link := { Link.reset s.pins with reports :=
        [{ kind := .engine, occurrences := 1, reason := 0, detail := [0] },
         { kind := .spell, occurrences := 1, reason := 3, detail := [0] }] },
      composer := .reset, line := .reset, wheel := .reset, strikeQueue := [],
      engine := .reset s.engine.channelA s.engine.channelB, correction := .reset,
      impression := .reset s.now, zone := .reset, spelling := .reset, display := .reset s.now,
      memory := .reset p s.now, chip := s.chip.reset s.fresh s.memory.current,
      sensors := s.sensors.reset, sounder := .reset, fresh := s.fresh + 1 } := by
  unfold resetMachine raiseSpell engineReport
  dsimp only
  rw [raise_of_reported (k := .engine) _ _ (resetMask_getLsbD s.pins _),
    raise_of_reported (k := .spell) _ _ (resetMask_getLsbD s.pins _)]
  rfl

/-- R183: the reset values stand. -/
theorem resetMachine_stands (p : Nat) (s : State) : standsAfterReset p s.now s (resetMachine p s) := by
  have hsensors (i : Sensor) : s.sensors.reset.get i =
      { debounced := (s.sensors.get i).raw, raw := (s.sensors.get i).raw, timer := none, selection := .both } := by
    cases i <;> rfl
  rw [resetMachine_eq]
  unfold standsAfterReset
  and_intros
  any_goals rfl
  exact hsensors

theorem exec_resetPin {s : State} (h : s.pins.resetLow = false) :
    exec .resetPin s = .next { resetMachine 3 s with pins := { s.pins with resetLow := true } } := by
  have hpins : (resetMachine 3 s).pins = s.pins := by rw [resetMachine_eq]
  rw [exec, execResetPin, if_neg (by simp [h])]
  dsimp only
  rw [hpins]

theorem exec_resetPinRelease {s : State} (h : s.pins.resetLow = true) :
    exec .resetPinRelease s = .next (chooseFrame { s with pins := { s.pins with resetLow := false } }) := by
  simp only [exec, execResetPinRelease, h, if_true]

/-- R182: after a reset the line takes the first of its two reports. -/
theorem chooseFrame_resetMachine {p : Nat} {s : State} (h : s.pins.resetLow = false) :
    ∃ x l, chooseFrame (resetMachine p s) =
      { resetMachine p s with link := { (resetMachine p s).link with transmit := x, reports := l } } := by
  rw [resetMachine_eq]
  exact ⟨_, _, chooseFrame_of_report h rfl rfl rfl rfl⟩

/-- Settles O3. -/
theorem reset_pin_and_reset_request_reset_every_block :
    Obligations.reset_pin_and_reset_request_reset_every_block := by
  refine ⟨fun s => ⟨fun hhigh => ?asserted, fun hlow => ⟨?again, ?released⟩, fun hhigh => ?releasedAgain⟩,
    fun tag s => ⟨fun hheard => ?request, fun x hline hpending hkind hbody hhigh => ?gone⟩⟩
  case asserted =>
    have hstands := resetMachine_stands 3 s
    have hpin := exec_resetPin hhigh
    rw [resetMachine_eq] at hstands hpin
    exact ⟨_, hpin, hstands, rfl, rfl, rfl, rfl⟩
  case again => simp [exec, execResetPin, hlow]
  case released =>
    refine ⟨_, exec_resetPinRelease hlow, fun e es hline hreplies hpending hreports => ?_⟩
    exact ⟨_, chooseFrame_of_report rfl hline hreplies hpending hreports, rfl, rfl⟩
  case releasedAgain => simp [exec, execResetPinRelease, hhigh]
  case request =>
    exact congrArg Host.Outcome.next (acceptFrame_of_hears hheard 0x7F tag (fixedBody 0 handleReset) [])
  case gone =>
    let u : State := { s.reach x.ends with link := { s.link with transmit := none } }
    have hstands : standsAfterReset s.memory.protect (max s.now x.ends) s (resetMachine s.memory.protect u) :=
      resetMachine_stands s.memory.protect u
    obtain ⟨y, l, hchosen⟩ := chooseFrame_resetMachine (p := s.memory.protect) (s := u) hhigh
    have hgone := (exec_frameSent hline).trans
      (congrArg _ ((frameGone_of_resetReply (s.reach x.ends) hkind hbody hpending).trans hchosen))
    rw [resetMachine_eq] at hgone hstands
    exact ⟨_, hgone, hstands, rfl, rfl⟩

end Sys2Proof.Machine


/-! ## The receive side: frames complete, and the framer byte by byte (R175 to R178) -/

namespace Sys2Proof.Machine

section

variable {s : State}

/-! ### Complete frames -/

theorem kindIsBad_iff (k : Byte) : kindIsBad k = true ↔ k = 0x7D ∨ k = 0x7E ∨ 0x80 ≤ k.toNat := by
  simp only [kindIsBad, Bool.or_eq_true, beq_iff_eq, decide_eq_true_eq, or_assoc, BitVec.toNat_eq]
  rfl

/-- R178: the owner of a request of fixed length judges the length first. -/
theorem handlerOf_fixedLength {k : Byte} {n : Nat} {f : List Byte → State → Handled}
    (hf : handlerOf k.toNat = some f) (hn : fixedLength k = some n) : ∃ g, f = fixedBody n g := by
  unfold fixedLength at hn
  generalize k.toNat = m at hf hn
  unfold handlerOf at hf
  split at hf <;> cases hf <;> cases hn <;> exact ⟨_, rfl⟩

/-- R178: no other kind has an owner, and none of the kinds that have one is bad. -/
theorem handlerOf_eq_none_of_not_request {k : Byte} (h : kindIsRequest k = false) : handlerOf k.toNat = none := by
  have hnot : k.toNat ∉ requestKinds := by simpa [kindIsRequest] using h
  unfold handlerOf
  split
  case h_35 => rfl
  all_goals next hk => exact absurd (hk ▸ by decide) hnot

theorem kindIsBad_eq_false_of_frame {c : Instr} {k t : Byte} {body : List Byte} (h : c.frame = some (k, t, body)) :
    kindIsBad k = false := by
  cases c <;> cases h <;> rfl

/-- R176, R178: a request row is the completion of its frame. -/
theorem exec_eq_completeFrame {c : Instr} {k t : Byte} {body : List Byte} (h : c.frame = some (k, t, body))
    (s : State) : exec c s = .next (completeFrame k t body s) := by
  obtain ⟨f, hf, hexec⟩ := exec_of_frame h s
  rw [hexec, completeFrame, kindIsBad_eq_false_of_frame h, hf]
  rfl

theorem completeFrame_of_bad {k : Byte} (h : kindIsBad k = true) (t : Byte) (body : List Byte) (s : State) :
    completeFrame k t body s = drawNak t [0x03, k] (hunt s) :=
  if_pos h

theorem completeFrame_of_unknown {k : Byte} (hbad : kindIsBad k = false) (hunknown : kindIsRequest k = false)
    (t : Byte) (body : List Byte) (s : State) :
    completeFrame k t body s = acceptFrame k t handleUnknown body s := by
  rw [completeFrame, hbad, handlerOf_eq_none_of_not_request hunknown]
  rfl

theorem completeFrame_of_not_hears (h : ¬hears s) (k t : Byte) (body : List Byte) :
    completeFrame k t body s = hunt s := by
  have hdiscards : discards (hunt s) = true := discards_eq_true_of_not_hears (s := s) h
  unfold completeFrame
  split
  · exact if_pos hdiscards
  · exact acceptFrame_of_not_hears h ..

theorem drawNak_of_not_hears (h : ¬hears s) (t : Byte) (body : List Byte) : drawNak t body (hunt s) = hunt s :=
  if_pos (discards_eq_true_of_not_hears (s := s) h)

theorem drawNak_of_hears (h : hears s) (t : Byte) (body : List Byte) :
    drawNak t body (hunt s) = chooseFrame { hunt s with link := { (hunt s).link with
      replies := s.link.replies ++ [{ kind := 0xFE, tag := t, body := body }] } } := by
  have hdiscards : discards (hunt s) = false := discards_eq_false_of_hears (s := s) h
  rw [drawNak, hdiscards]
  rfl

theorem exec_nakBadLength_of_lt {n : Byte} (h : 57 ≤ n.toNat) (s : State) :
    exec (.nakBadLength n) s = .next (drawNak 0 [0x02] (hunt s)) :=
  if_pos h

theorem exec_nakBadLength_of_le {n : Byte} (h : n.toNat ≤ 56) (s : State) : exec (.nakBadLength n) s = .next s :=
  if_neg (Nat.not_lt.mpr h)

end

/-- Settles O7. -/
theorem frames_are_discarded_judged_or_draw_a_nak : Obligations.frames_are_discarded_judged_or_draw_a_nak := by
  refine ⟨fun c s hcomplete hnot => ?discarded, fun c k t b n s hframe hfixed hlength hheard => ?wrongLength,
    fun k t n s hnot => ⟨?_, fun hbad => ?_, fun hlong => ?_, fun hshort => ?_, fun hlow => ?_⟩,
    fun s => ⟨fun hinside => ?_, fun hoff => ?_, fun t hgap => ?_, fun hgap => ?_⟩,
    fun k t n b s hheard => ⟨?_, fun hlong => ?_, fun hbad => ?_, fun hbad hunknown => ?_⟩⟩
  case discarded =>
    rcases hcomplete with hframe | ⟨k, t, b, rfl⟩
    · obtain ⟨⟨k, t, b⟩, hframe⟩ := Option.isSome_iff_exists.mp hframe
      rw [exec_eq_completeFrame hframe, completeFrame_of_not_hears hnot]
      rfl
    · exact congrArg Host.Outcome.next (completeFrame_of_not_hears hnot k t b)
  case wrongLength =>
    obtain ⟨f, hf, hexec⟩ := exec_of_frame hframe s
    obtain ⟨g, rfl⟩ := handlerOf_fixedLength hf hfixed
    rw [hexec, acceptFrame_of_hears hheard, fixedBody_of_length_ne _ hlength]
  · exact congrArg Host.Outcome.next (drawNak_of_not_hears hnot t [0x01, k])
  · exact congrArg Host.Outcome.next (completeFrame_of_not_hears hnot k t [])
  · rw [exec_nakBadLength_of_lt hlong, drawNak_of_not_hears hnot]
    rfl
  · exact exec_nakBadLength_of_le hshort s
  · simp [exec, execByteReceived, hlow]
  · simp only [exec, execBadByte, hinside, if_false]
    rfl
  · simp [exec, execBadByte, hoff]
  · simp only [exec, execGapTimer, hgap]
    rfl
  · simp [exec, execGapTimer, hgap]
  · exact congrArg Host.Outcome.next (drawNak_of_hears hheard t [0x01, k])
  · rw [exec_nakBadLength_of_lt hlong, drawNak_of_hears hheard]
  · exact congrArg Host.Outcome.next
      ((completeFrame_of_bad ((kindIsBad_iff k).mpr hbad) t [] s).trans (drawNak_of_hears hheard t [0x03, k]))
  · exact congrArg Host.Outcome.next
      ((completeFrame_of_unknown hbad hunknown t b s).trans (acceptFrame_of_hears hheard k t handleUnknown b))

/-! ### Bytes received -/

/-- R175: the state with a byte taken into the frame in hand. -/
def inFrame (s : State) (x : FramerState) (f : FrameInHand) : State :=
  { s with link := { s.link with framer := x, frame := f, gap := some (s.now + 200) } }

section

variable {s : State} {b : Byte}

theorem exec_byteReceived (h : s.pins.resetLow = false) : exec (.byteReceived b) s = .next (frameByte b s) :=
  if_neg (by simp [h])

theorem frameByte_hunting (h : s.link.framer = .hunting) (hb : b = 0xA5) :
    frameByte b s = inFrame s .length .clear := by
  rw [frameByte, h]
  exact if_pos hb

theorem frameByte_hunting_other (h : s.link.framer = .hunting) (hb : b ≠ 0xA5) : frameByte b s = s := by
  rw [frameByte, h]
  exact if_neg hb

theorem frameByte_length (h : s.link.framer = .length) (hb : b.toNat ≤ 56) :
    frameByte b s = inFrame s .kind { s.link.frame with length := b.toNat, sum := b } := by
  rw [frameByte, h]
  exact if_neg (Nat.not_lt.mpr hb)

theorem frameByte_badLength (h : s.link.framer = .length) (hb : 57 ≤ b.toNat) :
    frameByte b s = drawNak 0 [0x02] (hunt s) := by
  rw [frameByte, h]
  exact if_pos hb

theorem frameByte_kind (h : s.link.framer = .kind) :
    frameByte b s = inFrame s .tag { s.link.frame with kind := b, sum := s.link.frame.sum + b } := by
  rw [frameByte, h]
  rfl

theorem frameByte_tag (h : s.link.framer = .tag) :
    frameByte b s = inFrame s (if s.link.frame.length = 0 then .check else .body)
      { s.link.frame with tag := b, sum := s.link.frame.sum + b } := by
  rw [frameByte, h]
  rfl

theorem frameByte_body (h : s.link.framer = .body) :
    frameByte b s = inFrame s (if s.link.frame.length ≤ s.link.frame.body.length + 1 then .check else .body)
      { s.link.frame with body := s.link.frame.body ++ [b], sum := s.link.frame.sum + b } := by
  rw [frameByte, h]
  rfl

theorem frameByte_check (h : s.link.framer = .check) :
    frameByte b s = if b = s.link.frame.check then
      completeFrame s.link.frame.kind s.link.frame.tag s.link.frame.body s
      else drawNak s.link.frame.tag [0x01, s.link.frame.kind] (hunt s) := by
  rw [frameByte, h]

theorem receive_cons (h : s.pins.resetLow = false) (bs : List Byte) :
    receive (b :: bs) s = receive bs (frameByte b s) := by
  rw [receive, exec_byteReceived h]

theorem inFrame_inFrame (x y : FramerState) (f g : FrameInHand) : inFrame (inFrame s x f) y g = inFrame s y g := rfl

theorem inFrame_frame (x : FramerState) (f : FrameInHand) : (inFrame s x f).link.frame = f := rfl

theorem receive_cons_inFrame (h : s.pins.resetLow = false) (x : FramerState) (f : FrameInHand) (bs : List Byte) :
    receive (b :: bs) (inFrame s x f) = receive bs (frameByte b (inFrame s x f)) :=
  receive_cons (s := inFrame s x f) h bs

/-- R175: the bytes of a body, taken one after another, and with the last one the check byte is awaited. -/
theorem receive_body (bs : List Byte) : ∀ (s : State) (f : FrameInHand) (b : Byte) (rest : List Byte),
    s.pins.resetLow = false → f.length = f.body.length + (b :: bs).length →
    receive ((b :: bs) ++ rest) (inFrame s .body f) =
      receive rest (inFrame s .check
        { f with body := f.body ++ (b :: bs), sum := (b :: bs).foldl (· + ·) f.sum }) := by
  induction bs with
  | nil =>
    intro s f b rest hpin hlength
    have hlast : f.length ≤ f.body.length + 1 := hlength.le
    rw [List.cons_append, receive_cons_inFrame hpin, frameByte_body rfl, inFrame_inFrame, inFrame_frame, if_pos hlast]
    rfl
  | cons c bs ih =>
    intro s f b rest hpin hlength
    have hmore : ¬f.length ≤ f.body.length + 1 := by simp only [List.length_cons] at hlength; omega
    rw [List.cons_append, receive_cons_inFrame hpin, frameByte_body rfl, inFrame_inFrame, inFrame_frame,
      if_neg hmore]
    have hnext := ih s { f with body := f.body ++ [b], sum := f.sum + b } c rest hpin
      (by simp only [List.length_cons, List.length_append, List.length_nil] at hlength ⊢; omega)
    simp only [List.append_assoc, List.singleton_append, ← List.foldl_cons] at hnext
    exact hnext

/-- R175: start, length, kind, tag and body of a frame, taken one after another. -/
theorem receive_upToCheck {k t : Byte} {body : List Byte} (hlength : body.length ≤ 56)
    (hhunting : s.link.framer = .hunting) (hpin : s.pins.resetLow = false) (rest : List Byte) :
    receive ([0xA5, byte body.length, k, t] ++ body ++ rest) s =
      receive rest (inFrame s .check
        { length := body.length, kind := k, tag := t, body := body,
          sum := sumBytes (byte body.length :: k :: t :: body) }) := by
  have hbyte : (byte body.length).toNat = body.length := Nat.mod_eq_of_lt (by omega)
  have hsum : sumBytes (byte body.length :: k :: t :: body) =
      body.foldl (· + ·) (byte body.length + k + t) := by
    simp only [sumBytes, List.foldl_cons, zero_add]
  simp only [List.cons_append, List.nil_append]
  rw [receive_cons hpin, frameByte_hunting hhunting rfl, receive_cons_inFrame hpin,
    frameByte_length rfl (hbyte.trans_le hlength), inFrame_inFrame, inFrame_frame, receive_cons_inFrame hpin,
    frameByte_kind rfl, inFrame_inFrame, inFrame_frame, receive_cons_inFrame hpin, frameByte_tag rfl,
    inFrame_inFrame, inFrame_frame, hsum, hbyte]
  cases body with
  | nil => rfl
  | cons b bs => exact receive_body bs s _ b rest hpin (Nat.zero_add _).symm

/-- R175, R176: the bytes of a frame are the completion of the frame, or BAD-CHECK. -/
theorem receive_frameBytes {k t x : Byte} {body : List Byte} (hlength : body.length ≤ 56)
    (hhunting : s.link.framer = .hunting) (hpin : s.pins.resetLow = false) :
    receive (frameBytes k t body x) s =
      .next (if x = frameCheck k t body then completeFrame k t body s else drawNak t [0x01, k] (hunt s)) := by
  rw [frameBytes, receive_upToCheck hlength hhunting hpin, receive_cons_inFrame hpin, frameByte_check rfl, receive]
  rfl

end

/-- Settles O8: the bytes up to the check byte bring the frame into hand, and the check byte hands it on. -/
theorem framer_takes_bytes_and_hands_on_frames : Obligations.framer_takes_bytes_and_hands_on_frames := by
  refine ⟨fun x s hpin => ⟨fun h hx => ?_, fun h hx => ?_, fun h hx => ?_, fun h hx => ?_, fun h => ?_,
    fun h hlength => ?_, fun h hlength => ?_, fun h hlength => ?_, fun h hlength => ?_⟩,
    fun k t b s hlength hhunting hpin => ⟨fun c hframe => ?_, fun hbad => ?_, fun hbad hunknown => ?_,
      fun x hx => ?_⟩⟩
  · rw [exec_byteReceived hpin, frameByte_hunting h hx]
    rfl
  · rw [exec_byteReceived hpin, frameByte_hunting_other h hx]
  · rw [exec_byteReceived hpin, frameByte_length h hx]
    rfl
  · rw [exec_byteReceived hpin, frameByte_badLength h hx, exec_nakBadLength_of_lt hx]
  · rw [exec_byteReceived hpin, frameByte_kind h]
    rfl
  · rw [exec_byteReceived hpin, frameByte_tag h, if_pos hlength]
    rfl
  · rw [exec_byteReceived hpin, frameByte_tag h, if_neg hlength]
    rfl
  · rw [exec_byteReceived hpin, frameByte_body h, if_neg (by omega)]
    rfl
  · rw [exec_byteReceived hpin, frameByte_body h, if_pos hlength.le]
    rfl
  · rw [receive_frameBytes hlength hhunting hpin, if_pos rfl, exec_eq_completeFrame hframe]
  · rw [receive_frameBytes hlength hhunting hpin, if_pos rfl, completeFrame_of_bad hbad]
    exact congrArg Host.Outcome.next (completeFrame_of_bad hbad t [] s).symm
  · rw [receive_frameBytes hlength hhunting hpin, if_pos rfl]
    rfl
  · rw [receive_frameBytes hlength hhunting hpin, if_neg hx]
    rfl

end Sys2Proof.Machine


/-! ## The end of a text event keeps what a cell's creation fixes (O9) -/

namespace Sys2Proof.Machine

/-- From `s` to `t` no cell is new, the order stands, and each cell keeps what its creation fixed. -/
def FixedKept (s t : State) : Prop := (t.line.cells.map fixedPart).Sublist (s.line.cells.map fixedPart)

namespace FixedKept

theorem of_line {s t : State} (h : t.line = s.line) : FixedKept s t := by
  rw [FixedKept, h]

theorem refl (s : State) : FixedKept s s := of_line rfl

theorem trans {s t u : State} (h : FixedKept s t) (g : FixedKept t u) : FixedKept s u := List.Sublist.trans g h

theorem after {s t u : State} (g : FixedKept t u) (h : FixedKept s t) : FixedKept s u := h.trans g

theorem of_map {s t : State} (h : t.line.cells.map fixedPart = s.line.cells.map fixedPart) : FixedKept s t := by
  rw [FixedKept, h]

theorem of_foldl {α : Type} {f : State → α → State} (h : ∀ s a, FixedKept s (f s a)) (l : List α) :
    ∀ s, FixedKept s (l.foldl f s) := by
  induction l with
  | nil => exact refl
  | cons a l ih => exact fun s => (h s a).trans (ih _)

end FixedKept

section

variable (s : State)

/-! ### Shared operations -/

theorem fixedKept_raise (k : ReportKind) (r : Nat) (d : List Byte) : FixedKept s (raise k r d s) := by
  obtain ⟨-, h⟩ | ⟨-, h⟩ := raise_cases s k r d <;> rw [h] <;> exact .of_line rfl

theorem fixedKept_askSound (o : OneShot) : FixedKept s (askSound o s) := by
  obtain h | ⟨-, -, h⟩ | ⟨-, -, -, h⟩ := askSound_cases s o <;> rw [h] <;> exact .of_line rfl

/-- A change of one cell that spares its fixed part. -/
theorem fixedKept_modifyCell (id : Nat) {f : Cell → Cell} (h : ∀ c, fixedPart (f c) = fixedPart c) :
    FixedKept s (modifyCell id f s) := by
  refine .of_map ?_
  simp only [modifyCell, modifyCells, List.map_map]
  refine List.map_congr_left fun c _ => ?_
  rw [Function.comp_apply]
  split
  · exact h c
  · rfl

theorem fixedKept_setCellState (id : Nat) (x : CellState) : FixedKept s (setCellState id x s) :=
  fixedKept_modifyCell s id fun _ => rfl

theorem fixedKept_endOperation (u : User) : FixedKept s (endOperation u s) := by
  cases u
  case store => unfold endOperation; dsimp only; split <;> exact .of_line rfl
  all_goals exact .of_line rfl

theorem fixedKept_failWrite (n : Nat) (r : Request) : FixedKept s (failWrite n r s) :=
  (fixedKept_raise ..).trans (fixedKept_endOperation ..)

theorem fixedKept_beginTransaction (r : Request) : FixedKept s (beginTransaction r s) := by
  unfold beginTransaction
  split <;> exact .of_line rfl

theorem fixedKept_grantWithin (n : Nat) : ∀ s, FixedKept s (grantWithin n s) := by
  induction n with
  | zero => exact .refl
  | succ n ih =>
    intro s
    unfold grantWithin
    split
    · split
      · exact .refl s
      · next r m _ =>
        have htaken : FixedKept s { s with memory := m } := .of_line rfl
        split
        · exact (htaken.trans (fixedKept_failWrite ..)).trans (ih _)
        · exact htaken.trans (fixedKept_beginTransaction ..)
    · exact .refl s

/-! ### Words -/

theorem fixedKept_modifyWord (id : Nat) (f : Word → Word) : FixedKept s (modifyWord id f s) := .of_line rfl

theorem fixedKept_classify (id : Nat) : FixedKept s (classify id s) := by
  unfold classify
  split
  · exact .refl s
  · dsimp only
    split
    · exact .of_line rfl
    · split
      · exact .of_line rfl
      · exact (fixedKept_raise ..).after (.of_line rfl)
      · exact .of_line rfl
      · exact .of_line rfl

theorem fixedKept_removeWordRecord (id : Nat) : FixedKept s (removeWordRecord id s) := by
  unfold removeWordRecord
  dsimp only
  split <;> split <;> exact .of_line rfl

theorem fixedKept_reopenWord (id : Nat) : FixedKept s (reopenWord id s) := by
  unfold reopenWord
  dsimp only
  split <;> exact .of_line rfl

theorem fixedKept_wordLoses (b : Bool) (id : Nat) : FixedKept s (wordLoses b id s) := by
  unfold wordLoses
  split
  · exact .refl s
  · split
    · exact fixedKept_removeWordRecord ..
    · dsimp only
      split
      · exact .of_line rfl
      · split
        · exact FixedKept.trans (t := reopenWord id _) ((fixedKept_reopenWord ..).after (fixedKept_modifyWord ..))
            (.of_line rfl)
        · exact (fixedKept_classify ..).after ((fixedKept_reopenWord ..).after (.of_line rfl))

theorem fixedKept_shortenRun (gone : List Nat) : FixedKept s (shortenRun gone s) := by
  obtain ⟨_, -, -, h⟩ | ⟨_, -, -, h⟩ | ⟨-, h⟩ := shortenRun_cases s gone <;> rw [h] <;> exact .of_line rfl

theorem fixedKept_spellRemoved (b : Bool) (l : List Cell) : FixedKept s (spellRemoved b l s) := by
  unfold spellRemoved
  refine FixedKept.trans ?_ (FixedKept.of_foldl (fun s id => fixedKept_wordLoses s b id) _ _)
  exact (fixedKept_shortenRun ..).after (.of_line rfl)

/-! ### The Line Memory -/

theorem fixedPart_advanceTo (closed : Cell → Bool) (m : Nat) (l : List Cell) :
    (advanceTo closed m l).map fixedPart = l.map fixedPart := by
  induction l with
  | nil => rfl
  | cons c l ih =>
    have hc : fixedPart (if c.isHeld = true then { c with state := CellState.pending } else c) = fixedPart c := by
      split <;> rfl
    unfold advanceTo
    split
    · rfl
    · rw [List.map_cons, List.map_cons, hc]
      split
      · rfl
      · rw [ih]

theorem fixedKept_releaseAdvance : FixedKept s (releaseAdvance s) := by
  unfold releaseAdvance
  split
  · exact .refl s
  · exact .of_map (fixedPart_advanceTo ..)

theorem fixedKept_dropCells (gone : Cell → Bool) : FixedKept s (dropCells gone s) :=
  List.Sublist.map _ List.filter_sublist

theorem fixedKept_removeCells (b : Bool) (gone : Cell → Bool) : FixedKept s (removeCells b gone s) :=
  ((fixedKept_dropCells ..).trans (fixedKept_spellRemoved ..)).trans (fixedKept_releaseAdvance _)

/-! ### Lookups -/

theorem fixedKept_applyResult (good : Bool) : FixedKept s (applyResult good s) := by
  unfold applyResult
  split
  · exact .refl s
  · dsimp only
    split
    · exact .of_line rfl
    · split
      · exact .of_line rfl
      · refine (fixedKept_releaseAdvance _).after ?_
        split
        · exact .of_line rfl
        · exact (fixedKept_raise ..).after ((fixedKept_askSound ..).after (.of_line rfl))

theorem fixedKept_searchUserWords (k : Nat) : FixedKept s (searchUserWords k s) := by
  unfold searchUserWords
  split
  · exact .refl s
  · split
    · exact fixedKept_applyResult ..
    · split
      · exact fixedKept_applyResult ..
      · exact .of_line rfl

theorem fixedKept_askDictionary (l : Lookup) (o : Nat) : FixedKept s (askDictionary l o s) := by
  unfold askDictionary
  dsimp only
  split
  · exact .of_line rfl
  · exact (fixedKept_searchUserWords ..).after (.of_line rfl)

theorem fixedKept_beginLookupOnce : FixedKept s (beginLookupOnce s) := by
  unfold beginLookupOnce
  split
  · split
    · exact .of_line rfl
    · exact (fixedKept_askDictionary ..).after (.of_line rfl)
  · exact .refl s

theorem fixedKept_beginLookups (n : Nat) : ∀ s, FixedKept s (beginLookups n s) := by
  induction n with
  | zero => exact .refl
  | succ n ih => exact fun s => (fixedKept_beginLookupOnce s).trans (ih _)

/-! ### The planner -/

theorem fixedKept_takeWaiting (n : Nat) : ∀ s, FixedKept s (takeWaiting n s) := by
  induction n with
  | zero => exact .refl
  | succ n ih =>
    intro s
    unfold takeWaiting
    split
    · exact .refl s
    · split
      · exact (ih _).after ((fixedKept_setCellState ..).after (.of_line rfl))
      · exact .refl s

theorem fixedKept_handleGroup {b : Built} {c : Cell} {t : State} (h : handleGroup b c s = some t) :
    FixedKept s t := by
  unfold handleGroup at h
  split at h
  · obtain rfl := Option.some.inj h
    exact fixedKept_modifyCell s c.id fun _ => rfl
  · split at h
    · obtain rfl := Option.some.inj h
      refine FixedKept.trans (t := addAtTail b.orders s) (.of_line rfl) ?_
      exact fixedKept_modifyCell _ c.id fun _ => rfl
    · cases h

theorem fixedKept_planPending {before after : List Cell} {c : Cell} {t : State}
    (h : planPending before c after s = some t) : FixedKept s t := by
  have hstruck {t : State} (h : some (setCellState c.id .struck s) = some t) : FixedKept s t := by
    obtain rfl := Option.some.inj h
    exact fixedKept_setCellState ..
  have hbuild {t : State} (h : (match activeProfile s.wheel with
      | none => none
      | some p => handleGroup (buildGroup s.composer.format s.wheel p before after c) c s) = some t) :
      FixedKept s t := by
    split at h
    · cases h
    · exact fixedKept_handleGroup s h
  unfold planPending at h
  dsimp only at h
  split at h
  · exact hstruck h
  · exact fixedKept_handleGroup s h
  · split at h
    · exact hstruck h
    · split at h
      · cases h
      · split at h
        · cases h
        · split at h
          · exact hbuild h
          · exact hstruck h
  · exact hbuild h
  · exact hbuild h

theorem fixedKept_planOnce {t : State} (h : planOnce s = some t) : FixedKept s t := by
  unfold planOnce at h
  split at h
  · cases h
  · split at h
    · cases h
    · split at h
      · cases h
      · exact fixedKept_planPending s h

theorem fixedKept_planCells (n : Nat) : ∀ s, FixedKept s (planCells n s) := by
  induction n with
  | zero => exact .refl
  | succ n ih =>
    intro s
    unfold planCells
    split
    · exact .refl s
    · next h => exact (fixedKept_planOnce s h).trans (ih _)

theorem fixedKept_supplyQueue : FixedKept s (supplyQueue s) :=
  (fixedKept_takeWaiting ..).trans (fixedKept_planCells ..)

/-! ### The Print Engine -/

theorem fixedKept_enterState (x : EngineState) : FixedKept s (enterState x s) :=
  (fixedKept_raise ..).after (.of_line rfl)

theorem fixedKept_refuseLift (x : LiftCheck) (c n : Nat) : FixedKept s (refuseLift x c n s) := by
  unfold refuseLift
  split
  · exact .refl s
  · exact (fixedKept_raise ..).trans (fixedKept_askSound ..)
  · exact (fixedKept_raise ..).trans (fixedKept_askSound ..)

theorem fixedKept_judgeNote (c : Nat) : FixedKept s (judgeNote c s) := by
  unfold judgeNote
  split
  · exact .refl s
  · split
    · exact .refl s
    · exact fixedKept_raise ..

theorem fixedKept_buildDeferred (c : Nat) : FixedKept s (buildDeferred c s) := by
  unfold buildDeferred
  split
  · dsimp only
    split
    · exact .of_line rfl
    · split
      · exact (fixedKept_removeCells ..).after (.of_line rfl)
      · split
        · split
          · exact (fixedKept_setCellState ..).after (.of_line rfl)
          · exact .of_line rfl
        · exact (fixedKept_refuseLift ..).after (.of_line rfl)
  · exact .refl s

theorem fixedKept_finishStrikeGroup (c : Nat) : FixedKept s (finishStrikeGroup c s) :=
  (fixedKept_buildDeferred ..).after ((fixedKept_judgeNote ..).after ((fixedKept_setCellState ..).after (.of_line rfl)))

theorem fixedKept_abandonLift (x : LiftCheck) (c : Nat) : FixedKept s (abandonLift x c s) :=
  (fixedKept_refuseLift ..).after ((fixedKept_setCellState ..).after (.of_line rfl))

/-- The start of a strike turns the wheel, so no order completes there. -/
theorem fixedKept_beginStrike (p q i : Nat) : FixedKept s (beginStrike p q i s) := by
  unfold beginStrike endMoving
  split
  · exact .of_line rfl
  · next o ho =>
    obtain rfl := Option.some.inj ho
    split
    · split
      · contradiction
      · exact .of_line rfl
    · exact .of_line rfl

theorem fixedKept_skipOrder (o : Order) (k : StrikeKind) (c : Option Byte) (rest : List Order) :
    FixedKept s (skipOrder o k c rest s) := by
  have hmarked (t : State) : FixedKept t (modifyCell o.cell
      (fun c => if k = .under then { c with underlineDropped := true } else { c with unprintable := true }) t) :=
    fixedKept_modifyCell t _ fun c => by split <;> rfl
  unfold skipOrder
  dsimp only
  split
  · exact (fixedKept_finishStrikeGroup ..).after ((fixedKept_raise ..).after ((hmarked _).after (.of_line rfl)))
  · exact (fixedKept_raise ..).after ((hmarked _).after (.of_line rfl))

theorem fixedKept_startOrders (n : Nat) : ∀ s, FixedKept s (startOrders n s) := by
  induction n with
  | zero => exact .refl
  | succ n ih =>
    intro s
    unfold startOrders
    split
    · exact .refl s
    · split
      · split
        · dsimp only
          split
          · exact fixedKept_skipOrder ..
          · exact (ih _).after (fixedKept_skipOrder ..)
        · exact fixedKept_beginStrike ..
      · split
        · exact fixedKept_abandonLift ..
        · split
          · exact fixedKept_abandonLift ..
          · exact fixedKept_beginStrike ..
      · exact .of_line rfl

theorem fixedKept_judgeStart : FixedKept s (judgeStart s) := by
  unfold judgeStart
  split
  · exact fixedKept_enterState ..
  · split
    · exact fixedKept_enterState ..
    · split
      · exact .of_line rfl
      · split
        · exact .of_line rfl
        · exact (fixedKept_startOrders ..).after (.of_line rfl)

theorem fixedKept_syncRunning : FixedKept s (syncRunning s) := by
  unfold syncRunning
  split
  · split <;> exact .of_line rfl
  · split <;> exact .of_line rfl
  · exact .refl s

theorem fixedKept_settleLoop (n : Nat) : ∀ s, FixedKept s (settleLoop n s) := by
  induction n with
  | zero => exact .refl
  | succ n ih =>
    intro s
    unfold settleLoop
    dsimp only
    have hturn := (fixedKept_supplyQueue s).trans (fixedKept_syncRunning _)
    split
    · exact (ih _).after (hturn.trans (fixedKept_judgeStart _))
    · exact hturn

theorem fixedKept_settle : FixedKept s (settle s) := by
  unfold settle
  split
  · dsimp only
    split
    · exact (fixedKept_raise ..).after ((fixedKept_settleLoop ..).after (.of_line rfl))
    · exact (fixedKept_settleLoop ..).after (.of_line rfl)
  · exact fixedKept_settleLoop ..

/-! ### The head item and the whole end -/

theorem fixedKept_judgeHead : FixedKept s (judgeHead s) := by
  unfold judgeHead
  split
  · exact .of_line rfl
  · unfold noteHold
    split
    · split
      · exact .of_line rfl
      · exact (fixedKept_raise ..).after (.of_line rfl)
    · exact .of_line rfl

theorem fixedKept_textEnd : FixedKept s (textEnd s) := by
  refine FixedKept.trans ?_ (.of_line (by rw [render_eq]) : FixedKept _ (render _))
  exact (fixedKept_grantWithin ..).after ((fixedKept_judgeHead _).after
    ((fixedKept_beginLookups ..).after (fixedKept_settle s)))

end

/-- Settles O9: the parts by the definitions, the frame by what each part leaves. -/
theorem end_of_text_event_leaves_the_rest : Obligations.end_of_text_event_leaves_the_rest := fun s =>
  ⟨rfl, rfl, by simp [textEnd], fixedKept_textEnd s⟩

end Sys2Proof.Machine


/-! ## The head item (O10) -/

namespace Sys2Proof.Machine

/-! ### The item commands -/

/-- The commands of the key queue's items. -/
def itemCommands : List Instr :=
  [.glyphItem, .spaceItem, .tabItem, .returnItem, .backspaceItem, .relocateItem, .boldItem,
    .underlineItem, .marginReleaseItem, .correctItem, .wordCorrectItem, .unassignedItem]

/-- The class of codes that an item command takes. -/
def itemClass : Instr → Byte → Bool
  | .glyphItem => isGlyphCode
  | .spaceItem => isSpaceCode
  | .tabItem => (· == 0x09)
  | .returnItem => (· == 0x0D)
  | .backspaceItem => (· == 0x08)
  | .relocateItem => (· == 0x1E)
  | .boldItem => (· == 0x02)
  | .underlineItem => (· == 0x15)
  | .marginReleaseItem => (· == 0x1B)
  | .correctItem => (· == 0x1C)
  | .wordCorrectItem => (· == 0x1D)
  | .unassignedItem => isUnassignedCode
  | _ => fun _ => false

/-- What an item command does with a code that it takes. -/
def itemAction : Instr → Byte → State → State
  | .glyphItem => takeGlyph
  | .spaceItem => takeSpace
  | .tabItem => takeTab
  | .returnItem => takeReturn
  | .backspaceItem => takeBackspace
  | .relocateItem => fun _ => takeRelocate
  | .boldItem => fun _ => takeBold
  | .underlineItem => fun _ => takeUnderline
  | .marginReleaseItem => fun _ => takeMarginRelease
  | .correctItem => takeCorrect
  | .wordCorrectItem => takeWordCorrect
  | .unassignedItem => takeUnassigned
  | _ => fun _ s => s

theorem exec_itemCommand {c : Instr} (h : c ∈ itemCommands) (s : State) :
    exec c s = .next (takeItem (itemClass c) (itemAction c) s) := by
  simp only [itemCommands, List.mem_cons, List.not_mem_nil, or_false] at h
  rcases h with rfl | rfl | rfl | rfl | rfl | rfl | rfl | rfl | rfl | rfl | rfl | rfl <;> rfl

/-- R4: the codes that name one item each. -/
def namedCodes : List Byte := [0x20, 0x09, 0x0D, 0x08, 0x1E, 0x02, 0x15, 0x1B, 0x1C, 0x1D]

theorem toNat_ne_of_not_named {code : Byte} (h : code ∉ namedCodes) (d : Byte) (hd : d ∈ namedCodes) :
    code.toNat ≠ d.toNat := fun hc => h (BitVec.eq_of_toNat_eq hc ▸ hd)

theorem itemCommand_of_not_named {code : Byte} (h : code ∉ namedCodes) :
    itemCommand code = if isGlyphCode code then .glyphItem else .unassignedItem := by
  have hne := toNat_ne_of_not_named h
  unfold itemCommand
  split
  next hc => exact absurd hc (hne 0x20 (by decide))
  next hc => exact absurd hc (hne 0x09 (by decide))
  next hc => exact absurd hc (hne 0x0D (by decide))
  next hc => exact absurd hc (hne 0x08 (by decide))
  next hc => exact absurd hc (hne 0x1E (by decide))
  next hc => exact absurd hc (hne 0x02 (by decide))
  next hc => exact absurd hc (hne 0x15 (by decide))
  next hc => exact absurd hc (hne 0x1B (by decide))
  next hc => exact absurd hc (hne 0x1C (by decide))
  next hc => exact absurd hc (hne 0x1D (by decide))
  next => rfl

theorem itemClass_of_named : ∀ code ∈ namedCodes, ∀ c ∈ itemCommands,
    (itemClass c code = true ↔ c = itemCommand code) := by decide

/-- R4: each code belongs to one class, that of its command. -/
theorem itemClass_iff {c : Instr} (h : c ∈ itemCommands) (code : Byte) :
    itemClass c code = true ↔ c = itemCommand code := by
  by_cases hnamed : code ∈ namedCodes
  · exact itemClass_of_named code hnamed c h
  · rw [itemCommand_of_not_named hnamed]
    have hne := toNat_ne_of_not_named hnamed
    simp only [namedCodes, List.forall_mem_cons] at hne
    obtain ⟨h20, h09, h0D, h08, h1E, h02, h15, h1B, h1C, h1D, -⟩ := hne
    have hspace : isSpaceCode code = false := beq_false_of_ne h20
    have hother : [0x02, 0x08, 0x09, 0x0D, 0x15, 0x1B, 0x1C, 0x1D, 0x1E].contains code.toNat = false := by
      simp only [List.contains_eq_mem, decide_eq_false_iff_not, List.mem_cons, not_or]
      exact ⟨h02, h08, h09, h0D, h15, h1B, h1C, h1D, h1E, List.not_mem_nil⟩
    simp only [namedCodes, List.mem_cons, List.not_mem_nil, or_false, not_or] at hnamed
    simp only [itemCommands, List.mem_cons, List.not_mem_nil, or_false] at h
    cases hglyph : isGlyphCode code <;>
      rcases h with rfl | rfl | rfl | rfl | rfl | rfl | rfl | rfl | rfl | rfl | rfl | rfl <;>
      simp only [itemClass, isUnassignedCode, hglyph, hspace, hother, hnamed, beq_iff_eq, reduceCtorEq,
        Bool.not_true, Bool.not_false, Bool.false_and, Bool.and_self, if_true, Bool.false_eq_true, if_false]

theorem itemCommand_mem (code : Byte) : itemCommand code ∈ itemCommands := by
  unfold itemCommand
  split
  case h_11 => split <;> decide
  all_goals decide

/-! ### Taking -/

theorem exec_item_of_other {c : Instr} {s : State} {code : Byte} {rest : List Byte} (h : c ∈ itemCommands)
    (hqueue : s.composer.keyQueue = code :: rest) (hc : c ≠ itemCommand code) : exec c s = .next s := by
  have hclass : itemClass c code = false := Bool.eq_false_iff.mpr (mt (itemClass_iff h code).mp hc)
  rw [exec_itemCommand h, takeItem_of_other s _ hqueue hclass]

theorem exec_item_of_waits {s : State} {code : Byte} {rest : List Byte}
    (hqueue : s.composer.keyQueue = code :: rest) (hw : (waitsFor s code).any = true) :
    exec (itemCommand code) s = .next (textEvent s) := by
  have hclass := (itemClass_iff (itemCommand_mem code) code).mpr rfl
  rw [exec_itemCommand (itemCommand_mem code), takeItem_of_waits s _ hqueue hclass hw]

/-! ### The wait conditions (R3, R120) -/

theorem hasLineEnd_iff {cells : List Cell} : hasLineEnd cells = true ↔ ∃ c ∈ cells, c.kind = .lineEnd := by
  simp [hasLineEnd]

section

variable {s : State} {code : Byte}

theorem backpressure_iff : backpressure s = true ↔
    s.composer.format.spelling ≠ .off ∧ 8 ≤ s.spelling.checkQueue.length := by
  rw [backpressure, Bool.and_eq_true, bne_iff_ne]
  exact and_congr_right fun _ => decide_eq_true_iff

theorem reachesWrap_iff : reachesWrap s code = true ↔
    ∃ start a, (∃ k, placeGlyph s code = .wrap k start a) ∨ placeGlyph s code = .wrapRefused start a := by
  unfold reachesWrap
  cases placeGlyph s code <;> simp

theorem isSpaceCode_iff : isSpaceCode code = true ↔ code = 0x20 :=
  beq_iff_eq.trans ⟨fun h => BitVec.eq_of_toNat_eq h, fun h => h ▸ rfl⟩

theorem isSpaceCode_eq_false_of_glyph (h : isGlyphCode code = true) : isSpaceCode code = false := by
  refine Bool.eq_false_iff.mpr fun hspace => ?_
  rw [isSpaceCode_iff.mp hspace] at h
  exact absurd h (by decide)

/-- R111: the subject of an item's cell, for a space and for a glyph. -/
theorem holdSubject_space {x y : Nat} :
    holdSubject s 0x20 = some (x, y) ↔ ∃ a b, placeSpace s = .create x a b ∧ y = x + a := by
  show (match placeSpace s with
    | .create p a _ => some (p, p + a)
    | _ => none) = some (x, y) ↔ _
  cases placeSpace s with
  | carriageEnd => simp
  | create p a b => simp; grind

theorem holdSubject_glyph (h : isGlyphCode code = true) {x y : Nat} :
    holdSubject s code = some (x, y) ↔ ∃ k a, y = x + a ∧
      ((∃ b, placeGlyph s code = .create k x a b) ∨ placeGlyph s code = .wrap k x a) := by
  rw [holdSubject, isSpaceCode_eq_false_of_glyph h]
  cases placeGlyph s code <;> simp <;> grind

/-- R111: an item of a wheel's class has the subject that its placement gives. -/
theorem holdSubject_iff {x y : Nat} :
    (isGlyphCode code = true ∨ isSpaceCode code = true) ∧ holdSubject s code = some (x, y) ↔
      (code = 0x20 ∧ ∃ a b, placeSpace s = .create x a b ∧ y = x + a) ∨
      (isGlyphCode code = true ∧ ∃ k a, y = x + a ∧
        ((∃ b, placeGlyph s code = .create k x a b) ∨ placeGlyph s code = .wrap k x a)) := by
  rw [isSpaceCode_iff]
  by_cases hglyph : isGlyphCode code = true
  · have hspace : code ≠ 0x20 := fun h => absurd (h ▸ hglyph) (by decide)
    simp only [hglyph, hspace, true_or, true_and, false_and, false_or, holdSubject_glyph hglyph]
  · simp only [hglyph, false_or, false_and, or_false, Bool.false_eq_true]
    refine and_congr_right fun hspace => ?_
    rw [hspace, holdSubject_space]

theorem meets_iff {w : Watch} {start stop : Nat} : w.meets start stop = true ↔
    start < w.position + w.span ∧ w.position ≤ (if start < stop then stop - 1 else start) := by
  rw [Watch.meets, Bool.and_eq_true, decide_eq_true_iff]
  exact and_congr_right fun _ => decide_eq_true_iff

end


section

variable {z : ZoneMonitor} {kind : WatchKind} {start stop : Nat}

/-- R112: whether an enabled watch of a kind acts on a subject. -/
def acts (kind : WatchKind) (start stop : Nat) (x : Watch) : Prop :=
  x.enabled = true ∧ x.kind = kind ∧ x.meets start stop = true

theorem actingWatch_of_first (h : acts kind start stop z.watch1) : actingWatch z kind start stop = some 3 := if_pos h

theorem actingWatch_of_second (h : ¬acts kind start stop z.watch1) (g : acts kind start stop z.watch2) :
    actingWatch z kind start stop = some 4 := (if_neg h).trans (if_pos g)

theorem actingWatch_of_none (h : ¬acts kind start stop z.watch1) (g : ¬acts kind start stop z.watch2) :
    actingWatch z kind start stop = none := (if_neg h).trans (if_neg g)

theorem actingWatch_isSome_iff : (actingWatch z kind start stop).isSome = true ↔
    ∃ x, (x = z.watch1 ∨ x = z.watch2) ∧ acts kind start stop x := by
  by_cases h1 : acts kind start stop z.watch1
  · exact iff_of_true (by rw [actingWatch_of_first h1]; rfl) ⟨_, .inl rfl, h1⟩
  · by_cases h2 : acts kind start stop z.watch2
    · exact iff_of_true (by rw [actingWatch_of_second h1 h2]; rfl) ⟨_, .inr rfl, h2⟩
    · refine iff_of_false (by rw [actingWatch_of_none h1 h2]; decide) ?_
      rintro ⟨x, rfl | rfl, hx⟩
      · exact h1 hx
      · exact h2 hx

end

section

variable {s : State} {code : Byte}

/-- R120: a HOLD watch holds an item of a wheel's class whose cell it acts on, where no pass is granted. -/
theorem holdingWatch_eq_some_iff {a : Nat} : holdingWatch s code = some a ↔
    (isGlyphCode code = true ∨ isSpaceCode code = true) ∧ s.wheel.active ≠ none ∧ s.zone.holdPass = false ∧
      ∃ start stop, holdSubject s code = some (start, stop) ∧ actingWatch s.zone .hold start stop = some a := by
  unfold holdingWatch
  split
  · next h =>
    simp only [Bool.and_eq_true, Bool.or_eq_true, Option.isSome_iff_ne_none, Bool.not_eq_true'] at h
    obtain ⟨⟨hclass, hactive⟩, hpass⟩ := h
    cases hsub : holdSubject s code with
    | none => simp
    | some p =>
      obtain ⟨x, y⟩ := p
      simp [hclass, hactive, hpass]
  · next h =>
    simp only [Bool.and_eq_true, Bool.or_eq_true, Option.isSome_iff_ne_none, Bool.not_eq_true'] at h
    refine iff_of_false nofun ?_
    rintro ⟨hclass, hactive, hpass, -⟩
    exact h ⟨⟨hclass, hactive⟩, hpass⟩

theorem noteHold_of_not_held (h : (holdingWatch s code).isSome = false ∨ s.zone.holdNoted = true) :
    noteHold code s = s := by
  unfold noteHold
  split
  · next hw _ =>
    rw [hw] at h
    exact if_pos (h.resolve_left nofun)
  · rfl

theorem noteHold_of_held {a x y : Nat} (hw : holdingWatch s code = some a) (hsub : holdSubject s code = some (x, y))
    (h : s.zone.holdNoted = false) :
    noteHold code s = zoneEvent .watchHold (some a) (subjectLeft s code) x y code
      { s with zone := { s.zone with holdNoted := true } } := by
  unfold noteHold
  rw [hw, hsub]
  exact if_neg (by rw [h]; decide)

theorem judgeHead_cons {rest : List Byte} (h : s.composer.keyQueue = code :: rest) :
    judgeHead s = noteHold code (setWaits (waitsFor s code) s) := by
  rw [judgeHead, h]

end

/-- Settles O10. -/
theorem head_item_waits_as_listed : Obligations.head_item_waits_as_listed := by
  refine ⟨fun s code rest hqueue => ?_, fun z kind start stop => ?acting⟩
  case acting =>
    have hacts (x : Watch) : acts kind start stop x ↔ x.enabled = true ∧ x.kind = kind ∧
        start < x.position + x.span ∧ x.position ≤ (if start < stop then stop - 1 else start) := by
      rw [acts, meets_iff]
    simp only [← hacts]
    exact ⟨actingWatch_of_first, actingWatch_of_second, actingWatch_of_none⟩
  intro w glyph space subject wraps
  have hsubject (x y : Nat) : subject x y ↔
      (isGlyphCode code = true ∨ isSpaceCode code = true) ∧ holdSubject s code = some (x, y) := holdSubject_iff.symm
  have hheld : w.watchHold = true ↔ ∃ a, holdingWatch s code = some a := Option.isSome_iff_exists
  refine ⟨backpressure_iff, ?second, ?noWheel, ?hold, exec_item_of_waits hqueue,
    fun c hc hne => exec_item_of_other hc hqueue hne, fun hnot => ?quiet, fun hhold hnoted => ?noted⟩
  case second =>
    show (hasLineEnd s.line.cells && (code == 0x0D || (isGlyphCode code && reachesWrap s code))) = true ↔ _
    rw [Bool.and_eq_true, Bool.or_eq_true, Bool.and_eq_true, hasLineEnd_iff, reachesWrap_iff, beq_iff_eq]
  case noWheel =>
    show ((isGlyphCode code || isSpaceCode code) && s.wheel.active.isNone) = true ↔ _
    rw [Bool.and_eq_true, Bool.or_eq_true, isSpaceCode_iff, Option.isNone_iff_eq_none]
  case hold =>
    have hacts (x y : Nat) (v : Watch) : acts .hold x y v ↔ v.enabled = true ∧ v.kind = .hold ∧
        x < v.position + v.span ∧ v.position ≤ (if x < y then y - 1 else x) := by
      rw [acts, meets_iff]
    simp only [hheld, holdingWatch_eq_some_iff, hsubject, ← hacts, ← actingWatch_isSome_iff,
      Option.isSome_iff_exists]
    constructor
    · rintro ⟨a, hclass, hactive, hpass, x, y, hsub, hacting⟩
      exact ⟨hactive, hpass, x, y, ⟨hclass, hsub⟩, a, hacting⟩
    · rintro ⟨hactive, hpass, x, y, ⟨hclass, hsub⟩, a, hacting⟩
      exact ⟨a, hclass, hactive, hpass, x, y, hsub, hacting⟩
  case quiet =>
    rw [judgeHead_cons hqueue]
    exact noteHold_of_not_held (s := setWaits w s) (hnot.imp_left id)
  case noted =>
    obtain ⟨a, ha⟩ := hheld.mp hhold
    obtain ⟨hclass, -, -, x, y, hsub, hacting⟩ := holdingWatch_eq_some_iff.mp ha
    refine ⟨a, subjectLeft s code, x, y, (hsubject x y).mpr ⟨hclass, hsub⟩, hacting, fun hwraps => ?_,
      fun hwraps => if_neg fun hreaches => ?_, ?_⟩
    · obtain ⟨hglyph, k, p, a, hplace⟩ := hwraps
      exact if_pos (by rw [Bool.and_eq_true]; exact ⟨hglyph, reachesWrap_iff.mpr ⟨p, a, .inl ⟨k, hplace⟩⟩⟩)
    · rw [Bool.and_eq_true, reachesWrap_iff] at hreaches
      obtain ⟨hglyph, p, a, ⟨k, hplace⟩ | hplace⟩ := hreaches
      · exact hwraps ⟨hglyph, k, p, a, hplace⟩
      · simp [holdSubject, isSpaceCode_eq_false_of_glyph hglyph, hplace] at hsub
    · rw [judgeHead_cons hqueue]
      exact noteHold_of_held (s := setWaits w s) ha hsub hnoted

end Sys2Proof.Machine


/-! ## The requests of the text path (O12 to O18) -/

namespace Sys2Proof.Machine

/-! ### The LINE-END cell of the list (R7) -/

section

variable {l r cells : List Cell} {c e : Cell}

theorem lineEndIndex_split (he : e.kind = .lineEnd) (hl : ∀ d ∈ l, d.kind ≠ .lineEnd) :
    lineEndIndex (l ++ e :: r) = some l.length := by
  have hnone : l.findIdx? (fun d => d.kind == .lineEnd) = none := by simpa using hl
  simp [lineEndIndex, List.findIdx?_append, hnone, List.findIdx?_cons, he]

theorem lineEndIndex_of_none (h : ∀ d ∈ cells, d.kind ≠ .lineEnd) : lineEndIndex cells = none := by
  simpa [lineEndIndex] using h

theorem endedCells_split (he : e.kind = .lineEnd) (hl : ∀ d ∈ l, d.kind ≠ .lineEnd) :
    endedCells (l ++ e :: r) = l ++ [e] := by
  rw [endedCells, lineEndIndex_split he hl]
  simp [List.take_append]

theorem endedCells_of_none (h : ∀ d ∈ cells, d.kind ≠ .lineEnd) : endedCells cells = [] := by
  rw [endedCells, lineEndIndex_of_none h]

theorem composingCells_split (he : e.kind = .lineEnd) (hl : ∀ d ∈ l, d.kind ≠ .lineEnd) :
    composingCells (l ++ e :: r) = r := by
  rw [composingCells, lineEndIndex_split he hl]
  simp

theorem composingCells_of_none (h : ∀ d ∈ cells, d.kind ≠ .lineEnd) : composingCells cells = cells := by
  rw [composingCells, lineEndIndex_of_none h]

theorem find_lineEnd_split (he : e.kind = .lineEnd) (hl : ∀ d ∈ l, d.kind ≠ .lineEnd) :
    ((l ++ e :: r).find? fun d => d.kind == .lineEnd) = some e := by
  rw [List.find?_eq_some_iff_append]
  exact ⟨by simpa using he, l, r, rfl, by simpa using hl⟩

/-- R8: a list with a LINE-END cell is what stands before the first, that cell, and the rest. -/
theorem exists_lineEnd_split (h : ∃ d ∈ cells, d.kind = .lineEnd) :
    ∃ l e r, cells = l ++ e :: r ∧ e.kind = .lineEnd ∧ ∀ d ∈ l, d.kind ≠ .lineEnd := by
  obtain ⟨d, hd, hkind⟩ := h
  obtain ⟨e, hfound⟩ : ∃ e, (cells.find? fun d => d.kind == .lineEnd) = some e :=
    Option.isSome_iff_exists.mp (List.find?_isSome.mpr ⟨d, hd, by simpa using hkind⟩)
  obtain ⟨he, l, r, hcells, hl⟩ := List.find?_eq_some_iff_append.mp hfound
  exact ⟨l, e, r, hcells, by simpa using he, by simpa using hl⟩

/-- R12: the ended line's cells. -/
theorem onEndedLine_iff : onEndedLine cells c ↔ c ∈ endedCells cells := by
  constructor
  · rintro ⟨l, e, r, rfl, he, hl, hc⟩
    rwa [endedCells_split he hl]
  · intro hc
    by_cases h : ∃ d ∈ cells, d.kind = .lineEnd
    · obtain ⟨l, e, r, rfl, he, hl⟩ := exists_lineEnd_split h
      exact ⟨l, e, r, rfl, he, hl, by rwa [endedCells_split he hl] at hc⟩
    · rw [endedCells_of_none (by simpa using h)] at hc
      cases hc

theorem endedCells_subset : endedCells cells ⊆ cells := by
  unfold endedCells
  split
  · exact List.nil_subset _
  · exact List.take_subset ..

end

/-! ### The release advance (R12, R134) -/

section

variable {s : State}

theorem cellCloses_iff {words : List Word} {d : Cell} : cellCloses words d = true ↔
    ∃ id w, d.word = some id ∧ words.find? (fun x => x.id == id) = some w ∧ w.holdMark = true ∧
      (w.state = .queued ∨ w.state = .checking ∨ w.state = .unknown ∧ w.accepted = false) := by
  have hword (w : Word) : w.closes = true ↔ w.holdMark = true ∧
      (w.state = .queued ∨ w.state = .checking ∨ w.state = .unknown ∧ w.accepted = false) := by
    simp [Word.closes, or_assoc]
  simp only [← hword]
  cases hd : d.word with
  | none => simp [cellCloses, hd]
  | some id => simp [cellCloses, hd, findWord, Option.any_eq_true]

theorem paperIsUnit_iff {l : LineMemory} : paperIsUnit l = true ↔
    ∃ r e, l.paper = some r ∧ r.releasedFlush = false ∧ r.ended = some e ∧ e.mode = .line := by
  cases hp : l.paper with
  | none => simp [paperIsUnit, hp]
  | some r => simp [paperIsUnit, hp, Option.any_eq_true]

/-- A cell of the list stands on the ended line where its id does. -/
theorem any_endedCells_iff {c : Cell} (hid : (s.line.cells.map (·.id)).Nodup) (hc : c ∈ s.line.cells) :
    ((endedCells s.line.cells).any fun d => d.id == c.id) = true ↔ c ∈ endedCells s.line.cells := by
  rw [List.any_eq_true]
  constructor
  · rintro ⟨d, hd, hsame⟩
    rwa [← List.inj_on_of_nodup_map hid (endedCells_subset hd) hc (by simpa using hsame)]
  · exact fun h => ⟨c, h, by simp⟩

theorem inClosedUnit_iff {c : Cell} (hid : (s.line.cells.map (·.id)).Nodup) (hc : c ∈ s.line.cells) :
    inClosedUnit s c = true ↔ unitCloses s c := by
  simp only [unitCloses, onEndedLine_iff, ← paperIsUnit_iff, ← cellCloses_iff]
  have hwhole := and_congr_right_iff.mpr fun (_ : paperIsUnit s.line = true) => any_endedCells_iff hid hc
  unfold inClosedUnit
  split
  · next h =>
    obtain ⟨hunit, hon⟩ := hwhole.mp h
    simp [hunit, hon]
  · next h =>
    rw [hwhole, and_comm] at h
    simp [h]

/-- R12: what the advance makes of a cell that it passes. -/
def releaseCell (c : Cell) : Cell := if c.isHeld then { c with state := .pending } else c

theorem advanceTo_cons_of_stops {closed : Cell → Bool} {m : Nat} {c : Cell} (l : List Cell)
    (h : c.isHeld = true ∧ closed c = true) : advanceTo closed m (c :: l) = c :: l := if_pos h

theorem advanceTo_cons_of_mark {closed : Cell → Bool} {c : Cell} (l : List Cell)
    (h : ¬(c.isHeld = true ∧ closed c = true)) : advanceTo closed c.id (c :: l) = releaseCell c :: l := by
  rw [advanceTo, if_neg h, if_pos rfl]
  rfl

theorem advanceTo_cons_of_passed {closed : Cell → Bool} {m : Nat} {c : Cell} (l : List Cell)
    (h : ¬(c.isHeld = true ∧ closed c = true)) (hm : c.id ≠ m) :
    advanceTo closed m (c :: l) = releaseCell c :: advanceTo closed m l := by
  rw [advanceTo, if_neg h, if_neg hm]
  rfl

/-- R12: the advance passes the cells that neither stop it nor are the mark. -/
theorem advanceTo_append {closed : Cell → Bool} {m : Nat} (l r : List Cell)
    (h : ∀ c ∈ l, ¬(c.isHeld = true ∧ closed c = true) ∧ c.id ≠ m) :
    advanceTo closed m (l ++ r) = l.map releaseCell ++ advanceTo closed m r := by
  induction l with
  | nil => rfl
  | cons c l ih =>
    obtain ⟨⟨hc, hm⟩, hl⟩ := List.forall_mem_cons.mp h
    rw [List.cons_append, advanceTo_cons_of_passed _ hc hm, ih hl, List.map_cons, List.cons_append]

theorem releaseAdvance_of_mark {m : Nat} (h : s.line.releaseMark = some m) : releaseAdvance s =
    { s with line := { s.line with cells := advanceTo (inClosedUnit s) m s.line.cells } } := by
  rw [releaseAdvance, h]

theorem releaseAdvance_of_no_mark (h : s.line.releaseMark = none) : releaseAdvance s = s := by
  rw [releaseAdvance, h]

end

/-! ### RELEASE (R16) -/

section

variable {s : State}

theorem cellIndex_before {before after : List Cell} {id : Nat} (h : ∃ d ∈ before, d.id = id) :
    ∃ i, cellIndex (before ++ after) id = some i ∧ i < before.length := by
  obtain ⟨d, hd, hid⟩ := h
  cases hfound : before.findIdx? fun c => c.id == id with
  | none =>
    have := List.findIdx?_eq_none_iff.mp hfound d hd
    simp [hid] at this
  | some i =>
    have hlt : i < before.length := by
      obtain ⟨h, -⟩ := List.findIdx?_eq_some_iff_getElem.mp hfound
      exact h
    exact ⟨i, by simp [cellIndex, List.findIdx?_append, hfound], hlt⟩

theorem cellIndex_behind {before after : List Cell} {id : Nat} (hbefore : ∀ d ∈ before, d.id ≠ id)
    (h : ∃ d ∈ after, d.id = id) : ∃ i, cellIndex (before ++ after) id = some i ∧ before.length ≤ i := by
  have hnone : (before.findIdx? fun c => c.id == id) = none := by simpa using hbefore
  obtain ⟨d, hd, hid⟩ := h
  cases hfound : after.findIdx? fun c => c.id == id with
  | none =>
    have := List.findIdx?_eq_none_iff.mp hfound d hd
    simp [hid] at this
  | some i => exact ⟨i + before.length, by simp [cellIndex, List.findIdx?_append, hnone, hfound], by omega⟩

theorem markBefore_of_none {n : Nat} (h : s.line.releaseMark = none) : markBefore s n = true := by
  rw [markBefore, h]
  rfl

theorem markBefore_of_index {m i n : Nat} (h : s.line.releaseMark = some m)
    (hi : cellIndex s.line.cells m = some i) : markBefore s n = decide (i < n) := by
  rw [markBefore, h, Option.bind_some, hi]

theorem exec_release (h : hears s) (tag : Byte) : exec (.release tag []) s =
    .next (reply 0x02 tag (textEnd (releaseCarriageLine (hunt s)), { status := .ok, data := [] })) :=
  congrArg Host.Outcome.next (acceptFrame_of_hears h 0x02 tag (fixedBody 0 handleRelease) [])

theorem releaseCarriageLine_of_empty (h : s.line.cells = []) : releaseCarriageLine s = s := by
  rw [releaseCarriageLine, h]
  rfl

theorem releaseCarriageLine_of_open {before : List Cell} {c : Cell} (h : s.line.cells = before ++ [c])
    (hnone : ∀ d ∈ s.line.cells, d.kind ≠ .lineEnd) : releaseCarriageLine s =
      releaseTo c.id
        { s with line := { s.line with composing := { s.line.composing with releasedFlush := true } } } := by
  have hfind : (s.line.cells.find? fun d => d.kind == .lineEnd) = none := by simpa using hnone
  rw [releaseCarriageLine, hfind, h, List.getLast?_append, List.getLast?_singleton]
  rfl

theorem releaseCarriageLine_of_ended {before after : List Cell} {e : Cell}
    (h : s.line.cells = before ++ e :: after) (he : e.kind = .lineEnd)
    (hbefore : ∀ d ∈ before, d.kind ≠ .lineEnd) :
    releaseCarriageLine s = if markBefore s before.length then releaseTo e.id s else s := by
  rw [releaseCarriageLine, h, find_lineEnd_split he hbefore, lineEndIndex_split he hbefore]
  rfl

end

/-- Settles O12: RELEASE by the list and the mark; the advance by the cells that stop it. -/
theorem release_request_releases_the_carriage_line :
    Obligations.release_request_releases_the_carriage_line := by
  refine ⟨fun tag s hheard => ?_, fun s => ?_⟩
  · rw [exec_release hheard]
    refine ⟨fun hempty => ?_, fun before c hcells hnone => ?_,
      fun before e after hcells he hbefore hid => ⟨fun hmark => ?_, fun hmark => ?_⟩⟩
    · rw [releaseCarriageLine_of_empty (s := hunt s) hempty]
    · rw [releaseCarriageLine_of_open (s := hunt s) hcells hnone]
      rfl
    · have hbeforeMark : markBefore (hunt s) before.length = true := by
        rcases hmark with hmark | ⟨d, hd, hmark⟩
        · exact markBefore_of_none hmark
        · obtain ⟨i, hi, hlt⟩ := cellIndex_before (after := e :: after) ⟨d, hd, rfl⟩
          rw [← hcells] at hi
          rw [markBefore_of_index (s := hunt s) hmark hi, decide_eq_true hlt]
      rw [releaseCarriageLine_of_ended (s := hunt s) hcells he hbefore, if_pos hbeforeMark]
      rfl
    · obtain ⟨d, hd, hmark⟩ := hmark
      have hother : ∀ x ∈ before, x.id ≠ d.id := by
        rw [hcells, List.map_append, List.nodup_append] at hid
        exact fun x hx => hid.2.2 _ (List.mem_map_of_mem hx) _ (List.mem_map_of_mem hd)
      obtain ⟨i, hi, hle⟩ := cellIndex_behind hother ⟨d, hd, rfl⟩
      rw [← hcells] at hi
      have hbeforeMark : markBefore (hunt s) before.length = false := by
        rw [markBefore_of_index (s := hunt s) hmark hi, decide_eq_false (by omega)]
      rw [releaseCarriageLine_of_ended (s := hunt s) hcells he hbefore, hbeforeMark]
      rfl
  · refine ⟨releaseAdvance_of_no_mark, fun before c after hcells hmark hid => ?_⟩
    have hstops {d : Cell} (hd : d ∈ s.line.cells) :
        (d.state = .held ∧ unitCloses s d) ↔ d.isHeld = true ∧ inClosedUnit s d = true := by
      rw [inClosedUnit_iff hid hd, Cell.isHeld, beq_iff_eq]
    have hne : ∀ d ∈ before, d.id ≠ c.id := by
      rw [hcells, List.map_append, List.nodup_append] at hid
      exact fun d hd => hid.2.2 _ (List.mem_map_of_mem hd) _ (by simp)
    rw [releaseAdvance_of_mark hmark]
    have hmem : ∀ d ∈ before ++ [c], d ∈ s.line.cells := by
      rw [hcells, List.append_cons before c after]
      exact fun d hd => List.mem_append_left _ hd
    have hpend : releaseCell = fun d : Cell => if d.state = .held then { d with state := .pending } else d := by
      funext d
      simp only [releaseCell, Cell.isHeld, beq_iff_eq]
    refine ⟨fun hpasses => ?_, fun l d r hsplit hd hl => ?_⟩
    · have hpassed (d : Cell) (hd : d ∈ before ++ [c]) : ¬(d.isHeld = true ∧ inClosedUnit s d = true) :=
        fun hstop => hpasses d hd ((hstops (hmem d hd)).mpr hstop)
      have hwalk : advanceTo (inClosedUnit s) c.id s.line.cells = (before ++ [c]).map releaseCell ++ after := by
        rw [hcells, advanceTo_append before _ fun d hd => ⟨hpassed d (List.mem_append_left _ hd), hne d hd⟩,
          advanceTo_cons_of_mark _ (hpassed c (by simp))]
        simp
      rw [hwalk, hpend]
    · have hall : s.line.cells = l ++ d :: (r ++ after) := by
        rw [hcells, List.append_cons before c after, hsplit]
        simp
      have hbefore : before = l ++ (d :: r).dropLast := by
        simpa [List.dropLast_append_of_ne_nil] using congrArg List.dropLast hsplit
      have hdstops := (hstops (by rw [hall]; simp)).mp hd
      have hpassed : ∀ x ∈ l, ¬(x.isHeld = true ∧ inClosedUnit s x = true) ∧ x.id ≠ c.id := fun x hx =>
        ⟨fun hstop => hl x hx ((hstops (by rw [hall]; exact List.mem_append_left _ hx)).mpr hstop),
          hne x (by rw [hbefore]; exact List.mem_append_left _ hx)⟩
      have hwalk : advanceTo (inClosedUnit s) c.id s.line.cells = l.map releaseCell ++ d :: (r ++ after) :=
        (congrArg _ hall).trans ((advanceTo_append l _ hpassed).trans
          (congrArg _ (advanceTo_cons_of_stops _ hdstops)))
      rw [hwalk, hpend]
      simp

/-! ### STOP (R24, R82, R108) -/

/-- R66: the group at the head ends with its last order. -/
theorem headGroup_append (body waiting : List Order) {last : Order} (hlast : last.last = true)
    (hbody : ∀ o ∈ body, o.last = false) : headGroup (body ++ [last] ++ waiting) = body ++ [last] := by
  induction body with
  | nil => exact if_pos hlast
  | cons o body ih =>
    obtain ⟨ho, hbody⟩ := List.forall_mem_cons.mp hbody
    show (if o.last = true then [o] else o :: headGroup (body ++ [last] ++ waiting)) = _
    rw [ho, ih hbody]
    rfl

/-- R82: the cells of the orders that STOP takes from the queue, some of which another group still names. -/
theorem mem_stopped_iff {going waiting : List Order} {id : Nat} :
    ((orderCells (going ++ waiting)).filter fun i => !(orderCells going).contains i).contains id = true ↔
      (∃ o ∈ waiting, o.cell = id) ∧ ∀ o ∈ going, o.cell ≠ id := by
  simp only [orderCells, List.contains_eq_mem, decide_eq_true_eq, List.mem_filter, List.map_append,
    List.mem_append, List.mem_map, Bool.not_eq_true', decide_eq_false_iff_not, not_exists, not_and]
  constructor
  · rintro ⟨h | h, hgoing⟩
    · obtain ⟨o, ho, hid⟩ := h
      exact absurd hid (hgoing o ho)
    · exact ⟨h, hgoing⟩
  · exact fun ⟨h, hgoing⟩ => ⟨.inr h, hgoing⟩

/-- Settles O13: the started group is the head group, and each cell goes back by its state. -/
theorem stop_request_gives_up_what_has_not_started : Obligations.stop_request_gives_up_what_has_not_started := by
  intro tag s going waiting hheard hqueue hidle hstarted gone
  have hkept : (if s.engine.groupStarted = true then headGroup s.strikeQueue else []) = going := by
    cases hgroup : s.engine.groupStarted with
    | false => exact (hidle hgroup).symm
    | true =>
      obtain ⟨body, last, rfl, hlast, hbody⟩ := hstarted hgroup
      rw [hqueue]
      exact headGroup_append body waiting hlast hbody
  let removed := (orderCells s.strikeQueue).filter fun id => !(orderCells going).contains id
  have hgone (c : Cell) : removed.contains c.id = true ↔ gone c := by
    simp only [removed, hqueue]
    exact mem_stopped_iff
  refine ⟨stopCell removed, fun c h => ?_, fun c h => ?_, fun c h hg => ?_, fun c h hg => ?_, fun c h hg => ?_, ?_⟩
  · rcases h with h | h <;> simp only [stopCell, h]
  · simp only [stopCell, h]
  · simp only [stopCell, h, (hgone c).mpr hg, if_true]
  · simp only [stopCell, h, (hgone c).mpr hg, if_true]
  · rcases h with h | h <;> simp only [stopCell, h, mt (hgone c).mp hg, Bool.false_eq_true, if_false]
  · have hstop : stopAll (hunt s) = { hunt s with
        strikeQueue := if s.engine.groupStarted = true then headGroup s.strikeQueue else []
        engine := { s.engine with groupWait := none }
        composer := { s.composer with
          keyQueue := [], waits := .clear, bold := false, underline := false, marginRelease := false }
        line := { s.line with
          cells := s.line.cells.map (stopCell ((orderCells s.strikeQueue).filter fun id =>
            !(orderCells (if s.engine.groupStarted = true then headGroup s.strikeQueue else [])).contains id))
          releaseMark := none }
        correction := { deferred := none, waiting := [] }
        zone := { s.zone with holdPass := false, holdNoted := false } } := rfl
    have hexec : exec (.stop tag []) s = .next (reply 0x03 tag (handleStop [] (hunt s))) :=
      congrArg Host.Outcome.next (acceptFrame_of_hears hheard 0x03 tag (fixedBody 0 handleStop) [])
    rw [hexec, handleStop, hstop, hkept]
    rfl

/-! ### RESUME (R79, R121) -/

theorem Sensors.isOpen_iff {x : Sensors} {i : Sensor} : x.isOpen i = true ↔ (x.get i).debounced = .opened := beq_iff_eq

theorem Sensors.isOpen_eq_false_iff {x : Sensors} {i : Sensor} :
    x.isOpen i = false ↔ (x.get i).debounced = .closed := by
  rw [Sensors.isOpen]
  cases (x.get i).debounced <;> decide

section

variable {s : State}

theorem endsPaperPause_iff : endsPaperPause s = true ↔
    s.engine.state = .paused .paper ∧ s.sensors.paper.debounced = .closed := by
  rw [endsPaperPause, Bool.and_eq_true, beq_iff_eq, Bool.not_eq_true', Sensors.isOpen_eq_false_iff]
  rfl

theorem grantsPass_iff : grantsPass s = true ↔
    ∃ code rest, s.composer.keyQueue = code :: rest ∧ (waitsFor s code).watchHold = true := by
  cases hqueue : s.composer.keyQueue with
  | nil => simp [grantsPass, hqueue]
  | cons code rest =>
    rw [grantsPass, hqueue]
    exact ⟨fun h => ⟨code, rest, rfl, h⟩, fun ⟨c, r, heq, h⟩ => by cases heq; exact h⟩

/-- R60: the report of a state that is no fault has no fault detail. -/
theorem enterState_of_not_faulted {x : EngineState} (h : x.isFaulted = false) (s : State) :
    enterState x s = raise .engine x.code [byte x.reasonCode] { s with engine := { s.engine with state := x } } := by
  have hstate : (setEngine { s.engine with state := x } s).engine.state.isFaulted = false := h
  rw [enterState, engineReport, hstate]
  rfl

/-- R79: the end of a paper pause, its report among it. -/
theorem resumeEngine_eq (s : State) : resumeEngine s = raise .engine (if s.strikeQueue = [] then 3 else 4) [0]
    { s with engine := { s.engine with
        state := if s.strikeQueue = [] then .ready else .running, groupWait := none } } := by
  unfold resumeEngine
  split <;> exact enterState_of_not_faulted rfl _

theorem resumeEngine_parts (s : State) : ∃ l e, resumeEngine s = { s with link := l, engine := e } := by
  rw [resumeEngine_eq]
  obtain ⟨-, h⟩ | ⟨-, h⟩ := raise_cases { s with engine := { s.engine with
    state := if s.strikeQueue = [] then .ready else .running, groupWait := none } } .engine
    (if s.strikeQueue = [] then 3 else 4) [0]
  · exact ⟨_, _, h⟩
  · exact ⟨_, _, h⟩

theorem exec_resume (h : hears s) (tag : Byte) :
    exec (.resume tag []) s = .next (reply 0x04 tag (handleResume [] (hunt s))) :=
  congrArg Host.Outcome.next (acceptFrame_of_hears h 0x04 tag (fixedBody 0 handleResume) [])

/-- R121: with the pass granted, what waits is what waits beside the watch. -/
theorem waitsFor_of_pass (h : s.zone.holdPass = true) (code : Byte) (hwheel : s.wheel.active ≠ none) :
    (waitsFor s code).any = ((waitsFor s code).backpressure || (waitsFor s code).secondLineEnd) := by
  have hhold : (waitsFor s code).watchHold = false := by
    simp [waitsFor, holdingWatch, h]
  have hnone : (waitsFor s code).noWheel = false := by
    rw [waitsFor, Option.isNone_eq_false_iff.mpr (Option.isSome_iff_ne_none.mpr hwheel), Bool.and_false]
  rw [Waits.any, hhold, hnone, Bool.or_false, Bool.or_false]

end

/-- Settles O14: the handler by its two grounds. -/
theorem resume_request_ends_a_paper_pause_or_a_hold :
    Obligations.resume_request_ends_a_paper_pause_or_a_hold := by
  intro tag s t hheard h pause held answered hstays hresumes
  have hpause : endsPaperPause h = true ↔ pause := endsPaperPause_iff
  have hheld : grantsPass h = true ↔ held := grantsPass_iff (s := h)
  have ht : t = if endsPaperPause h = true then resumeEngine h else h := by
    split
    · next hp => rw [hresumes (hpause.mp hp), resumeEngine_eq]; rfl
    · next hp => exact hstays (mt hpause.mpr hp)
  obtain ⟨l, e, hparts⟩ : ∃ l e, t = { h with link := l, engine := e } := by
    rw [ht]
    split
    · exact resumeEngine_parts h
    · exact ⟨h.link, h.engine, rfl⟩
  rw [exec_resume hheard]
  have hquiet : ¬pause → ¬held → handleResume [] h = (h, { status := .notReady, data := [] }) :=
    fun hp hh => if_neg (not_or.mpr ⟨mt hpause.mp hp, mt hheld.mp hh⟩)
  have hacts (hg : pause ∨ held) : handleResume [] h =
      (textEnd (if grantsPass h = true then passHeld t else t), { status := .ok, data := [] }) := by
    rw [ht]
    exact if_pos (hg.imp hpause.mpr hheld.mpr)
  refine ⟨fun hp hh => ?_, fun hp hh => ?_, fun code rest hqueue hhold => ?_⟩
  · rw [hquiet hp hh]
  · rw [hacts (.inl hp), if_neg (mt hheld.mp hh)]
  · have hgrant : held := ⟨code, rest, hqueue, hhold⟩
    have hactive : s.wheel.active ≠ none := by
      obtain ⟨a, ha⟩ := Option.isSome_iff_exists.mp hhold
      obtain ⟨-, hactive, -⟩ := holdingWatch_eq_some_iff.mp ha
      exact hactive
    have hwaits := waitsFor_of_pass (s := { t with zone := { s.zone with holdPass := true } }) rfl code
      (by rw [hparts]; exact hactive)
    rw [hacts (.inr hgrant), if_pos (hheld.mpr hgrant)]
    have hpassHeld : passHeld t = if (waitsFor { t with zone := { s.zone with holdPass := true } } code).any then
          { t with zone := { s.zone with holdPass := true } }
        else rearmAfter s.composer.printPoint ((if isSpaceCode code then takeSpace else takeGlyph) code
          { t with
            composer := { s.composer with keyQueue := rest, waits := .clear }
            display := { s.display with overlay := none }
            zone := { s.zone with holdPass := false, holdNoted := false } }) := by
      rw [hparts]
      unfold passHeld
      dsimp only
      rw [show h.composer.keyQueue = code :: rest from hqueue]
      rfl
    rw [hpassHeld, hwaits]
    have hkinds : (waitsFor { t with zone := { s.zone with holdPass := true } } code).backpressure =
          (waitsFor s code).backpressure ∧
        (waitsFor { t with zone := { s.zone with holdPass := true } } code).secondLineEnd =
          (waitsFor s code).secondLineEnd := by
      rw [hparts]
      exact ⟨rfl, rfl⟩
    have hclass : (if isSpaceCode code = true then takeSpace else takeGlyph) =
        if code = 0x20 then takeSpace else takeGlyph := if_congr isSpaceCode_iff rfl rfl
    rw [hkinds.1, hkinds.2, hclass]
    refine ⟨fun hwait => ?_, fun hback hsecond => ?_⟩
    · rw [Bool.or_eq_true_iff.mpr hwait]
      rfl
    · rw [hback, hsecond]
      rfl

/-! ### HOME and FEED (R64, R81) -/

section

variable {s : State}

theorem exec_home (h : hears s) (tag : Byte) :
    exec (.home tag []) s = .next (reply 0x05 tag (handleHome [] (hunt s))) :=
  congrArg Host.Outcome.next (acceptFrame_of_hears h 0x05 tag (fixedBody 0 handleHome) [])

theorem exec_feed (h : hears s) (tag b : Byte) :
    exec (.feed tag [b]) s = .next (reply 0x06 tag (handleFeed [b] (hunt s))) :=
  congrArg Host.Outcome.next (acceptFrame_of_hears h 0x06 tag (fixedBody 1 handleFeed) [b])

theorem handleHome_of_open (h : s.sensors.cover.debounced = .opened) :
    handleHome [] s = (s, { status := .notReady, data := [] }) := if_pos (Sensors.isOpen_iff (i := .cover).mpr h)

theorem handleHome_of_closed (h : s.sensors.cover.debounced = .closed) : handleHome [] s =
    match homeAnswer s.engine.state with
    | .accepted => (render (beginHoming s), Status.accepted.alone)
    | other => (s, other.alone) :=
  if_neg (Bool.eq_false_iff.mp (Sensors.isOpen_eq_false_iff (i := .cover).mpr h))

/-- R62: the beginning of a homing, its report among it. -/
theorem beginHoming_eq (s : State) : beginHoming s = raise .engine 1 [0]
    { s with engine := { s.engine with
        state := .homing, homing := some .carriageSearch, homingTravel := 0, homingLimit := some (s.now + 7750),
        carriage := none, wheelPosition := none, order := none, groupWait := none, faultDetail := none } } :=
  enterState_of_not_faulted rfl _

theorem feedReady_iff : feedReady s = true ↔
    s.engine.state = .ready ∧ ∀ c ∈ s.line.cells, c.state ≠ .pending ∧ c.state ≠ .ordered := by
  simp [feedReady]

theorem handleFeed_of_busy (body : List Byte) (h : s.engine.feed ≠ none) :
    handleFeed body s = (s, { status := .busy, data := [] }) := if_pos (Option.isSome_iff_ne_none.mpr h)

theorem handleFeed_of_idle (body : List Byte) (h : s.engine.feed = none) : handleFeed body s =
    if feedReady s = true then (textEnd (beginFeed (feedUnits (body.getD 0 0)) s), .ok)
    else (s, { status := .notReady, data := [] }) := if_neg (by rw [h]; decide)

/-- R81: the STRUCK cells of the line on which the carriage stands, told by their ids. -/
theorem mem_struckOfLine_iff {c : Cell} (hid : (s.line.cells.map (·.id)).Nodup) (hc : c ∈ s.line.cells) :
    (struckOfLine s.line.cells).contains c.id = true ↔
      c.state = .struck ∧ (hasLineEnd s.line.cells = true → c ∈ endedCells s.line.cells) := by
  have hsame {l : List Cell} (hl : l ⊆ s.line.cells) :
      c.id ∈ (l.filter fun d => d.state == .struck).map (·.id) ↔ c.state = .struck ∧ c ∈ l := by
    simp only [List.mem_map, List.mem_filter, beq_iff_eq]
    constructor
    · rintro ⟨d, ⟨hd, hstate⟩, hdc⟩
      obtain rfl := List.inj_on_of_nodup_map hid (hl hd) hc hdc
      exact ⟨hstate, hd⟩
    · exact fun ⟨hstate, hmem⟩ => ⟨c, ⟨hmem, hstate⟩, rfl⟩
  rw [List.contains_iff_mem, struckOfLine]
  split
  · next h => rw [hsame endedCells_subset]; simp [h]
  · next h => rw [hsame (List.Subset.refl _)]; simp [h, hc]

end

/-- Settles O15: HOME by its table, FEED by its three cases. -/
theorem home_and_feed_requests_by_their_tables : Obligations.home_and_feed_requests_by_their_tables := by
  refine ⟨fun tag s hheard => ?home, fun tag b s hheard => ?feed⟩
  case home =>
    rw [exec_home hheard]
    refine ⟨fun hnot => ?_, fun hclosed hstate => ?_, fun hclosed hstate => ?_⟩
    · cases hcover : s.sensors.cover.debounced with
      | opened => rw [handleHome_of_open (s := hunt s) hcover]
      | closed =>
        rw [handleHome_of_closed (s := hunt s) hcover]
        rcases hnot with hopen | hstate | hstate
        · rw [hcover] at hopen; cases hopen
        · rw [show (hunt s).engine.state = .unhomed from hstate]; rfl
        · rw [show (hunt s).engine.state = .running from hstate]; rfl
    · rw [handleHome_of_closed (s := hunt s) hclosed, show (hunt s).engine.state = .homing from hstate]
      rfl
    · have haccepted : homeAnswer (hunt s).engine.state = .accepted := by
        show homeAnswer s.engine.state = .accepted
        rcases hstate with h | h | h | h | ⟨r, h⟩ <;> rw [h] <;> rfl
      rw [handleHome_of_closed (s := hunt s) hclosed, haccepted, beginHoming_eq]
      rfl
  case feed =>
    rw [exec_feed hheard]
    refine ⟨fun hbusy => ?_, fun hidle hnot => ?_, fun hidle hready hstill hid => ?_⟩
    · rw [handleFeed_of_busy (s := hunt s) _ hbusy]
    · have hnotReady : ¬feedReady (hunt s) = true := fun h => by
        obtain ⟨hready, hstill⟩ := feedReady_iff.mp h
        exact hnot.elim (fun hne => hne hready) (fun hne => hne hstill)
      rw [handleFeed_of_idle (s := hunt s) _ hidle, if_neg hnotReady]
    · refine ⟨fun c => (struckOfLine s.line.cells).contains c.id, fun c hc => mem_struckOfLine_iff hid hc, ?_⟩
      have hfeedReady : feedReady (hunt s) = true := feedReady_iff.mpr ⟨hready, hstill⟩
      rw [handleFeed_of_idle (s := hunt s) _ hidle, if_pos hfeedReady]
      rfl

end Sys2Proof.Machine


/-! ## SET-TABS and SET-WATCH, and a refusal that SET-SENSORS does not give (O17, O18) -/

namespace Sys2Proof.Machine

/-! ### Bytes and numbers (R185) -/

theorem byte_toNat (b : Byte) : byte b.toNat = b := BitVec.ofNat_toNat ..

theorem toNat_byte {n : Nat} (h : n < 256) : (byte n).toNat = n := Nat.mod_eq_of_lt h

theorem num16_be16 {n : Nat} (h : n < 65536) : num16 (byte (n / 256)) (byte n) = n := by
  show n / 256 % 256 * 256 + n % 256 = n
  omega

/-- A byte is a literal where their values agree. -/
theorem eq_iff_toNat_eq {b c : Byte} : b = c ↔ b.toNat = c.toNat := BitVec.toNat_inj.symm

/-! ### SET-TABS (R118) -/

theorem increasing_iff {l : List Nat} : increasing l = true ↔ l.Pairwise (· < ·) := by
  induction l with
  | nil => simp [increasing]
  | cons a l ih => rw [increasing_cons, List.pairwise_cons, ih]

theorem mem_insertPosition_iff {p x : Nat} {l : List Nat} : x ∈ insertPosition p l ↔ x = p ∨ x ∈ l := by
  induction l with
  | nil => exact List.mem_singleton.trans (by simp)
  | cons q l ih =>
    unfold insertPosition
    split
    · exact List.mem_cons
    · split
      · next h => simp [h]
      · rw [List.mem_cons, ih, List.mem_cons, or_left_comm]

theorem mem_addTabs_iff {x : Nat} (new : List Nat) : ∀ {old}, x ∈ addTabs new old ↔ x ∈ new ∨ x ∈ old := by
  induction new with
  | nil => exact fun {old} => (by simp [addTabs] : x ∈ addTabs [] old ↔ _)
  | cons p new ih =>
    intro old
    rw [addTabs_cons, ih, mem_insertPosition_iff, List.mem_cons, or_left_comm, or_assoc]

/-- R118: the stops are told by their members. -/
theorem addTabs_eq {new old l : List Nat} (hold : old.Pairwise (· < ·)) (hnew : new.Pairwise (· < ·))
    (h : ∀ p, p ∈ new ↔ p ∈ old ∨ p ∈ l) : addTabs l old = new :=
  (increasing_iff.mp (increasing_addTabs l (increasing_iff.mpr hold))).eq_of_mem_iff hnew fun p => by
    rw [mem_addTabs_iff, h, or_comm]

theorem filter_stops_eq {new old l : List Nat} (hold : old.Pairwise (· < ·)) (hnew : new.Pairwise (· < ·))
    (h : ∀ p, p ∈ new ↔ p ∈ old ∧ p ∉ l) : (old.filter fun p => !l.contains p) = new :=
  (hold.filter _).eq_of_mem_iff hnew fun p => by simp [h]

theorem positions_flatMap_be16 {l : List Nat} (h : ∀ p ∈ l, p < 65536) : positions (l.flatMap be16) = some l := by
  induction l with
  | nil => rfl
  | cons p l ih =>
    obtain ⟨hp, hl⟩ := List.forall_mem_cons.mp h
    show (positions (l.flatMap be16)).bind (fun ps => some (num16 (byte (p / 256)) (byte p) :: ps)) = _
    rw [ih hl, num16_be16 hp]
    rfl

theorem positions_flatMap_be16_append (l : List Nat) (b : Byte) : positions (l.flatMap be16 ++ [b]) = none := by
  induction l with
  | nil => rfl
  | cons p l ih =>
    show (positions (l.flatMap be16 ++ [b])).bind (fun ps => some (num16 (byte (p / 256)) (byte p) :: ps)) = _
    rw [ih]
    rfl

section

variable {l : List Nat}

theorem tabList_of_listed (hl : ∀ p ∈ l, p < 65536) (h : l ≠ [] ∧ l.length ≤ 24 ∧ ∀ p ∈ l, p ≤ 1800) :
    tabList (l.flatMap be16) = some l := by
  obtain ⟨hne, hlength, hmax⟩ := h
  rw [tabList, positions_flatMap_be16 hl, Option.filter_eq_some_iff]
  refine ⟨rfl, ?_⟩
  simp only [Bool.and_eq_true, bne_iff_ne, List.all_eq_true]
  exact ⟨⟨hne, decide_eq_true hlength⟩, fun p hp => decide_eq_true (hmax p hp)⟩

theorem tabList_of_not_listed (hl : ∀ p ∈ l, p < 65536) (h : ¬(l ≠ [] ∧ l.length ≤ 24 ∧ ∀ p ∈ l, p ≤ 1800)) :
    tabList (l.flatMap be16) = none := by
  rw [tabList, positions_flatMap_be16 hl, Option.filter_eq_none_iff]
  rintro x hx hallowed
  obtain rfl := Option.some.inj hx
  simp only [Bool.and_eq_true, bne_iff_ne, List.all_eq_true] at hallowed
  obtain ⟨⟨hne, hlength⟩, hmax⟩ := hallowed
  exact h ⟨hne, of_decide_eq_true hlength, fun p hp => of_decide_eq_true (hmax p hp)⟩

variable {s : State}

theorem exec_setTabs (h : hears s) (tag : Byte) (body : List Byte) :
    exec (.setTabs tag body) s = .next (reply 0x11 tag (handleSetTabs body (hunt s))) :=
  congrArg Host.Outcome.next (acceptFrame_of_hears h 0x11 tag handleSetTabs body)

theorem handleSetTabs_of_no_list {op : Byte} {rest : List Byte} (hop : op.toNat ≠ 2) (h : tabList rest = none) :
    handleSetTabs (op :: rest) s = (s, { status := .badValue, data := [] }) := by
  simp only [handleSetTabs, if_neg hop, h]
  rfl

theorem handleSetTabs_of_other {op : Byte} (rest : List Byte) (hop : 3 ≤ op.toNat) :
    handleSetTabs (op :: rest) s = (s, { status := .badValue, data := [] }) := by
  cases h : tabList rest with
  | none => exact handleSetTabs_of_no_list (by omega) h
  | some l =>
    simp only [handleSetTabs, h, if_neg (show op.toNat ≠ 2 by omega), if_neg (show op.toNat ≠ 0 by omega),
      if_neg (show op.toNat ≠ 1 by omega)]
    rfl

theorem handleSetTabs_add {rest : List Byte} (h : tabList rest = some l) : handleSetTabs (0 :: rest) s =
    if 24 < (addTabs l s.zone.tabStops).length then (s, { status := .full, data := [] })
    else setTabStops (addTabs l s.zone.tabStops) s := by
  have hop : ¬(0 : Byte).toNat = 2 := by decide
  simp only [handleSetTabs, if_neg hop, h]
  rfl

theorem handleSetTabs_remove {rest : List Byte} (h : tabList rest = some l) : handleSetTabs (1 :: rest) s =
    setTabStops (s.zone.tabStops.filter fun p => !l.contains p) s := by
  have hop : ¬(1 : Byte).toNat = 2 := by decide
  simp only [handleSetTabs, if_neg hop, h]
  rfl

end

/-! ### SET-WATCH (R119) -/

section

variable {s : State}

theorem exec_setWatch (h : hears s) (tag number span kind enable : Byte) (p : Nat) :
    exec (.setWatch tag ([number] ++ be16 p ++ [span, kind, enable])) s =
      .next (reply 0x12 tag (handleSetWatch ([number] ++ be16 p ++ [span, kind, enable]) (hunt s))) :=
  congrArg Host.Outcome.next (acceptFrame_of_hears h 0x12 tag (fixedBody 6 handleSetWatch) _)

/-- R119: the values that a watch's fields may have. -/
def watchFields (p : Nat) (span kind enable : Byte) : Prop :=
  p ≤ 1800 ∧ (span = 1 ∨ span = 2 ∨ span = 4 ∨ span = 8) ∧ (kind = 0 ∨ kind = 1) ∧ (enable = 0 ∨ enable = 1)

/-- R119: the watch of allowed fields. -/
def watchOf (p : Nat) (span kind enable : Byte) : Watch :=
  { position := p - p % span.toNat, span := span.toNat, kind := if kind = 0 then .note else .hold,
    enabled := enable == 1 }

section

variable {p : Nat} {span kind enable : Byte}

theorem Watch.ofFields_of_allowed (h : watchFields p span kind enable) :
    Watch.ofFields p span.toNat kind.toNat enable.toNat = some (watchOf p span kind enable) := by
  obtain ⟨hp, hspan, hkind, henable⟩ := h
  have halign : alignDown p span.toNat = p - p % span.toNat := by
    have := Nat.div_add_mod p span.toNat
    rw [alignDown, Nat.mul_comm]
    omega
  simp only [eq_iff_toNat_eq (b := span)] at hspan
  rw [watchOf, ← halign]
  rcases hkind with rfl | rfl <;> rcases henable with rfl | rfl <;> exact if_pos ⟨hp, hspan⟩

theorem watchOf_bytes (h : watchFields p span kind enable) :
    (watchOf p span kind enable).bytes = be16 (p - p % span.toNat) ++ [span, kind, enable] := by
  obtain ⟨-, -, hkind, henable⟩ := h
  rw [Watch.bytes, watchOf, byte_toNat]
  rcases hkind with rfl | rfl <;> rcases henable with rfl | rfl <;> rfl

theorem Watch.ofFields_of_not_allowed (h : ¬watchFields p span kind enable) :
    Watch.ofFields p span.toNat kind.toNat enable.toNat = none := by
  simp only [watchFields, eq_iff_toNat_eq] at h
  unfold Watch.ofFields
  cases hk : WatchKind.ofCode kind.toNat with
  | none => rfl
  | some k =>
    cases he : boolOfCode enable.toNat with
    | none => rfl
    | some e =>
      refine if_neg fun hfit => h ⟨hfit.1, hfit.2, ?_, ?_⟩
      · unfold WatchKind.ofCode at hk
        split at hk
        · next h => exact .inl h
        · next h => exact .inr h
        · cases hk
      · unfold boolOfCode at he
        split at he
        · next h => exact .inl h
        · next h => exact .inr h
        · cases he

end

theorem handleSetWatch_eq (number span kind enable : Byte) {p : Nat} (hp : p < 65536) :
    handleSetWatch ([number] ++ be16 p ++ [span, kind, enable]) s =
      match Watch.ofFields p span.toNat kind.toNat enable.toNat with
      | none => (s, Status.badValue.alone)
      | some w =>
        if number.toNat = 1 ∨ number.toNat = 2 then
          (judgeHead { s with zone := setWatchOf number.toNat w s.zone }, { status := .ok, data := w.bytes })
        else (s, Status.badValue.alone) := by
  have hposition : at16 ([number] ++ be16 p ++ [span, kind, enable]) 1 = p := num16_be16 hp
  rw [handleSetWatch, hposition]
  rfl

end

/-- Settles O17: the stops by their members, the watch by its fields. -/
theorem set_tabs_and_set_watch_requests : Obligations.set_tabs_and_set_watch_requests := by
  refine ⟨fun tag op l new s hheard hold hnew hl => ?tabs, fun tag number span kind enable p s hheard hp => ?watch⟩
  case tabs =>
    have htabs : (hunt s).zone.tabStops = s.zone.tabStops := rfl
    simp only [exec_setTabs hheard]
    refine ⟨fun hop hlisted hmem => ?_, fun hop hlisted hmem => ?_, fun hop hnot => ?_, fun hop hempty => ?_,
      fun hop => ?_, fun b hop => ?_, rfl⟩
    · subst hop
      rw [handleSetTabs_add (tabList_of_listed hl hlisted), htabs, addTabs_eq hold hnew hmem]
      exact ⟨fun hfits => by rw [if_neg (by omega)]; rfl, fun hfull => by rw [if_pos hfull]⟩
    · subst hop
      rw [handleSetTabs_remove (tabList_of_listed hl hlisted), htabs, filter_stops_eq hold hnew hmem]
      rfl
    · rw [handleSetTabs_of_no_list ?_ (tabList_of_not_listed hl hnot)]
      rcases hop with rfl | rfl <;> decide
    · subst hop hempty
      rfl
    · rw [handleSetTabs_of_other _ hop]
    · rw [List.cons_append, handleSetTabs_of_no_list ?_ ?_]
      · rcases hop with rfl | rfl <;> decide
      · rw [tabList, positions_flatMap_be16_append]
        rfl
  case watch =>
    intro h request allowed w
    have hexec : exec request s = _ := exec_setWatch hheard tag number span kind enable p
    rw [handleSetWatch_eq number span kind enable hp] at hexec
    have hnumber : number = 1 ∨ number = 2 ↔ number.toNat = 1 ∨ number.toNat = 2 := by
      rw [eq_iff_toNat_eq, eq_iff_toNat_eq]
      rfl
    rw [hexec]
    refine ⟨fun hnot => ?_, fun ⟨hnum, hfit⟩ => ?_⟩
    · by_cases hfit : watchFields p span kind enable
      · have hnum : ¬(number.toNat = 1 ∨ number.toNat = 2) := fun hnum => hnot ⟨hnumber.mpr hnum, hfit⟩
        rw [Watch.ofFields_of_allowed hfit]
        simp only [if_neg hnum]
        rfl
      · rw [Watch.ofFields_of_not_allowed hfit]
        rfl
    · rw [Watch.ofFields_of_allowed hfit]
      simp only [if_pos (hnumber.mp hnum), watchOf_bytes hfit]
      have hset : setWatchOf number.toNat w s.zone =
          if number = 1 then { s.zone with watch1 := w } else { s.zone with watch2 := w } :=
        if_congr (eq_iff_toNat_eq (c := 1)).symm rfl rfl
      rw [← hset]
      rfl

/-! ### SET-SENSORS (R170) -/

section

variable {s : State}

theorem exec_setSensors (h : hears s) (tag a b c d : Byte) :
    exec (.setSensors tag [a, b, c, d]) s = .next (reply 0x15 tag (handleSetSensors [a, b, c, d] (hunt s))) :=
  congrArg Host.Outcome.next (acceptFrame_of_hears h 0x15 tag (fixedBody 4 handleSetSensors) _)

/-- The bodies of the replies that wait. -/
def waitingBodies (s : State) : List (List Byte) := s.link.replies.map fun x => x.body

end

/-- Refutes O18: SET-SENSORS refuses no selection byte. `EdgeSelection.ofCode` answers `EdgeSelection.none` past its
four codes, where the absent value was meant, so 7 for COVER is taken and answered OK, not BAD-VALUE. -/
theorem not_set_reports_set_sound_and_set_sensors_requests :
    ¬ Obligations.set_reports_set_sound_and_set_sensors_requests := by
  rintro ⟨-, -, hsensors⟩
  have hheard : hears State.reset := by unfold hears; decide
  obtain ⟨hrefused, -⟩ := hsensors 0 7 255 255 255 State.reset hheard
  have hanswer := (exec_setSensors hheard 0 7 255 255 255).symm.trans (hrefused ⟨.cover, by decide⟩)
  have hbodies := congrArg waitingBodies (Host.Outcome.next.inj hanswer)
  exact absurd hbodies (by decide)

end Sys2Proof.Machine


/-! ## One-shots and the speaker (O19) -/

namespace Sys2Proof.Machine

section

variable {s : State} {o : OneShot}

theorem exec_sound (h : hears s) (tag k : Byte) :
    exec (.sound tag [k]) s = .next (reply 0x16 tag (handleSound [k] (hunt s))) :=
  congrArg Host.Outcome.next (acceptFrame_of_hears h 0x16 tag (fixedBody 1 handleSound) _)

theorem handleSound_of_no_shot {k : Byte} (h : OneShot.ofCode k.toNat = none) :
    handleSound [k] s = (s, { status := .badValue, data := [] }) := by
  show (match OneShot.ofCode k.toNat with
    | none => (s, Status.badValue.alone)
    | some o => (askSound o s, { status := .ok, data := (oneShotOutcome s.sounder o).data })) = _
  rw [h]
  rfl

theorem handleSound_of_shot {k : Byte} (h : OneShot.ofCode k.toNat = some o) :
    handleSound [k] s = (askSound o s, { status := .ok, data := (oneShotOutcome s.sounder o).data }) := by
  show (match OneShot.ofCode k.toNat with
    | none => (s, Status.badValue.alone)
    | some o => (askSound o s, { status := .ok, data := (oneShotOutcome s.sounder o).data })) = _
  rw [h]

theorem OneShot.ofCode_eq_none {k : Byte} (h : k = 0 ∨ 6 ≤ k.toNat) : OneShot.ofCode k.toNat = none := by
  rcases h with rfl | h
  · rfl
  · obtain ⟨n, hn⟩ := Nat.exists_eq_add_of_le h
    rw [hn, Nat.add_comm]
    rfl

/-! ### The table of a one-shot's cases (R172) -/

section

variable {x : Sounder}

theorem oneShotOutcome_of_tone (h : x.tone = true) : oneShotOutcome x o = .droppedTone := if_pos h

theorem oneShotOutcome_of_muted (h : x.tone = false) (hv : x.volume = 0) : oneShotOutcome x o = .droppedMuted := by
  rw [oneShotOutcome, h]
  exact if_pos hv

theorem oneShotOutcome_of_bellOff (h : x.tone = false) (hv : x.volume ≠ 0) (hb : o = .bell)
    (he : x.bellEnable = false) : oneShotOutcome x o = .droppedBellOff := by
  rw [oneShotOutcome, h, if_neg (by decide), if_neg hv, if_pos ⟨hb, he⟩]

/-- R172: past the drops, what plays and what waits decide. -/
theorem oneShotOutcome_of_heard (h : x.tone = false) (hv : x.volume ≠ 0) (hb : o = .bell → x.bellEnable = true) :
    oneShotOutcome x o = if x.playing = none then .playing else if 4 ≤ x.queue.length then .droppedFull
      else .queued := by
  have hbell : ¬(o = .bell ∧ x.bellEnable = false) := fun ⟨hbell, hoff⟩ => by
    rw [hb hbell] at hoff
    cases hoff
  rw [oneShotOutcome, h, if_neg (by decide), if_neg hv, if_neg hbell]
  rfl

end

end

/-- What `askSound` makes of the sounder by its outcome. -/
def sounderAfter (o : OneShot) (now : Time) (x : Sounder) : SoundOutcome → Sounder
  | .playing => { x with playing := some { shot := o, ends := now + o.length } }
  | .queued => { x with queue := x.queue ++ [o] }
  | _ => x

theorem askSound_eq (o : OneShot) (s : State) :
    askSound o s = { s with sounder := sounderAfter o s.now s.sounder (oneShotOutcome s.sounder o) } := by
  unfold askSound
  cases oneShotOutcome s.sounder o <;> rfl

/-- R172: the one-shots with their lengths and frequencies. -/
def shotRows : List (OneShot × Nat × Nat) :=
  [(.click, 50, 2000), (.bell, 3000, 2400), (.beep, 1000, 1000), (.doubleBeep, 2200, 1000), (.error, 2500, 400)]

theorem length_of_row {o : OneShot} {length hertz : Nat} (h : (o, length, hertz) ∈ shotRows) : o.length = length := by
  simp only [shotRows, List.mem_cons, List.not_mem_nil, or_false, Prod.mk.injEq] at h
  rcases h with ⟨rfl, rfl, -⟩ | ⟨rfl, rfl, -⟩ | ⟨rfl, rfl, -⟩ | ⟨rfl, rfl, -⟩ | ⟨rfl, rfl, -⟩ <;> rfl

/-- R172: a one-shot sounds at its frequency for its length, but for the pause of DOUBLE-BEEP. -/
theorem frequencyAt_sound {o : OneShot} {length hertz t : Nat} (h : (o, length, hertz) ∈ shotRows) (ht : t < length) :
    frequencyAt o.sound t = if o = .doubleBeep ∧ 800 ≤ t ∧ t < 1400 then none else some hertz := by
  simp only [shotRows, List.mem_cons, List.not_mem_nil, or_false, Prod.mk.injEq] at h
  rcases h with ⟨rfl, rfl, rfl⟩ | ⟨rfl, rfl, rfl⟩ | ⟨rfl, rfl, rfl⟩ | ⟨rfl, rfl, rfl⟩ | ⟨rfl, rfl, rfl⟩
  case inr.inr.inr.inl =>
    simp only [OneShot.sound, frequencyAt, true_and]
    by_cases hfirst : t < 800
    · rw [if_pos hfirst, if_neg (by omega)]
    · by_cases hpause : t < 1400
      · rw [if_neg hfirst, if_pos (show t - 800 < 600 by omega), if_pos (by omega)]
      · rw [if_neg hfirst, if_neg (show ¬t - 800 < 600 by omega), if_pos (show t - 800 - 600 < 800 by omega),
          if_neg (by omega)]
  all_goals simp only [OneShot.sound, frequencyAt, if_pos ht, reduceCtorEq, false_and, if_false]

/-- Settles O19: the outcome by its table, the queue at the end of a one-shot, and the speaker by the stretches. -/
theorem one_shots_play_queue_or_drop : Obligations.one_shots_play_queue_or_drop := by
  refine ⟨fun tag k s hheard hk => ?refused, fun tag k o length s hheard hrow => ?asked, fun s => ?ended,
    fun x start t o length hertz hrow => ?output⟩
  case refused => rw [exec_sound hheard, handleSound_of_no_shot (OneShot.ofCode_eq_none hk)]
  case asked =>
    intro x leads
    obtain ⟨hcode, hlength⟩ : OneShot.ofCode k.toNat = some o ∧ o.length = length := by
      simp only [List.mem_cons, List.not_mem_nil, or_false, Prod.mk.injEq] at hrow
      rcases hrow with ⟨rfl, rfl, rfl⟩ | ⟨rfl, rfl, rfl⟩ | ⟨rfl, rfl, rfl⟩ | ⟨rfl, rfl, rfl⟩ | ⟨rfl, rfl, rfl⟩ <;>
        exact ⟨rfl, rfl⟩
    have hleads (r : SoundOutcome) (hr : oneShotOutcome x o = r) : leads (sounderAfter o s.now x r) r.data := by
      subst hr
      refine ⟨?_, askSound_eq o s⟩
      rw [exec_sound hheard, handleSound_of_shot hcode, askSound_eq]
      rfl
    refine ⟨fun h => hleads _ (oneShotOutcome_of_tone h), fun h hv => hleads _ (oneShotOutcome_of_muted h hv),
      fun h hv hb he => hleads _ (oneShotOutcome_of_bellOff h hv hb he), fun h hv hb => ?_⟩
    have hheardShot := oneShotOutcome_of_heard h hv hb
    refine ⟨fun hp => ?_, fun hp hq => hleads .droppedFull ?_, fun hp hq => hleads .queued ?_⟩
    · rw [← hlength]
      exact hleads .playing (hheardShot.trans (if_pos hp))
    · rw [hheardShot, if_neg hp, if_pos hq]
    · rw [hheardShot, if_neg hp, if_neg (by omega)]
  case ended =>
    refine ⟨fun h => ?_, fun p h hq => ?_, fun p o rest h hq => ?_⟩
    · simp only [exec, execOneShotEnd, h]
    · simp only [exec, execOneShotEnd, h, nextShot, State.reach, hq]
    · simp only [exec, execOneShotEnd, h, nextShot, State.reach, hq]
  case output =>
    intro sounds silent
    have hlength : o.length = length := length_of_row hrow
    have hshot (h : x.tone = false) (hs : sounds) : x.output (start + t) = if x.volume = 0 then none else
        (if silent then none else some hertz).map fun f =>
          { frequency := f, loudness := .volume x.volume, decaying := decide (o = .bell) } := by
      obtain ⟨hplaying, ht⟩ := hs
      have hsound := frequencyAt_sound hrow ht
      have htime : start + t + o.length - (start + length) = t := by
        rw [hlength]
        show start + t + length - (start + length) = t
        omega
      simp only [Sounder.output, h, hplaying, htime, hsound]
      rfl
    refine ⟨fun h => if_pos h, fun h hp => ?_, fun h hs hsilent => ?_, fun h hs hsilent hv => ?_⟩
    · simp only [Sounder.output, h, hp, Bool.false_eq_true, if_false]
    · rw [hshot h hs, if_pos hsilent]
      exact ite_self _
    · rw [hshot h hs, if_neg hsilent, if_neg (by omega)]
      rfl

end Sys2Proof.Machine


/-! ## SET-FORMAT (O16) -/

namespace Sys2Proof.Machine

/-! ### Codes of the format's values (R22, R185) -/

theorem Pitch.ofCode_iff {n : Nat} {p : Pitch} : Pitch.ofCode n = some p ↔ p.code = n := by
  constructor
  · unfold Pitch.ofCode
    split <;> simp +contextual [Pitch.code, eq_comm]
  · rintro rfl
    cases p <;> rfl

theorem Alignment.ofCode_iff {n : Nat} {a : Alignment} : Alignment.ofCode n = some a ↔ a.code = n := by
  constructor
  · unfold Alignment.ofCode
    split <;> simp +contextual [Alignment.code, eq_comm]
  · rintro rfl
    cases a <;> rfl

theorem ComposingMode.ofCode_iff {n : Nat} {m : ComposingMode} : ComposingMode.ofCode n = some m ↔ m.code = n := by
  constructor
  · unfold ComposingMode.ofCode
    split <;> simp +contextual [ComposingMode.code, eq_comm]
  · rintro rfl
    cases m <;> rfl

theorem SpellingMode.ofCode_iff {n : Nat} {m : SpellingMode} : SpellingMode.ofCode n = some m ↔ m.code = n := by
  constructor
  · unfold SpellingMode.ofCode
    split <;> simp +contextual [SpellingMode.code, eq_comm]
  · rintro rfl
    cases m <;> rfl

theorem boolOfCode_iff {n : Nat} {b : Bool} : boolOfCode n = some b ↔ boolCode b = n := by
  constructor
  · unfold boolOfCode
    split <;> simp +contextual [boolCode, eq_comm]
  · rintro rfl
    cases b <;> rfl

theorem spacingOfCode_iff {n u : Nat} : spacingOfCode n = some u ↔ (2 ≤ n ∧ n ≤ 6) ∧ u = 4 * n := by
  unfold spacingOfCode
  split
  · next h => simp [h, eq_comm]
  · next h => simp [h]

theorem Pitch.exists_code_iff {n : Nat} : (∃ p, Pitch.ofCode n = some p) ↔ n ∈ [10, 12, 15, 0] := by
  simp only [Pitch.ofCode_iff, List.mem_cons, List.not_mem_nil, or_false]
  constructor
  · rintro ⟨p, rfl⟩
    cases p <;> decide
  · rintro (rfl | rfl | rfl | rfl)
    exacts [⟨.ten, rfl⟩, ⟨.twelve, rfl⟩, ⟨.fifteen, rfl⟩, ⟨.proportional, rfl⟩]

theorem Alignment.exists_code_iff {n : Nat} : (∃ a, Alignment.ofCode n = some a) ↔ n ≤ 3 := by
  simp only [Alignment.ofCode_iff]
  constructor
  · rintro ⟨a, rfl⟩
    cases a <;> decide
  · intro h
    match n, h with
    | 0, _ => exact ⟨.left, rfl⟩
    | 1, _ => exact ⟨.justify, rfl⟩
    | 2, _ => exact ⟨.center, rfl⟩
    | 3, _ => exact ⟨.right, rfl⟩

theorem ComposingMode.exists_code_iff {n : Nat} : (∃ m, ComposingMode.ofCode n = some m) ↔ n ≤ 2 := by
  simp only [ComposingMode.ofCode_iff]
  constructor
  · rintro ⟨m, rfl⟩
    cases m <;> decide
  · intro h
    match n, h with
    | 0, _ => exact ⟨.direct, rfl⟩
    | 1, _ => exact ⟨.word, rfl⟩
    | 2, _ => exact ⟨.line, rfl⟩

theorem SpellingMode.exists_code_iff {n : Nat} : (∃ m, SpellingMode.ofCode n = some m) ↔ n ≤ 2 := by
  simp only [SpellingMode.ofCode_iff]
  constructor
  · rintro ⟨m, rfl⟩
    cases m <;> decide
  · intro h
    match n, h with
    | 0, _ => exact ⟨.off, rfl⟩
    | 1, _ => exact ⟨.flag, rfl⟩
    | 2, _ => exact ⟨.hold, rfl⟩

theorem exists_boolOfCode_iff {n : Nat} : (∃ b, boolOfCode n = some b) ↔ n ≤ 1 := by
  simp only [boolOfCode_iff]
  constructor
  · rintro ⟨b, rfl⟩
    cases b <;> decide
  · intro h
    match n, h with
    | 0, _ => exact ⟨false, rfl⟩
    | 1, _ => exact ⟨true, rfl⟩

theorem exists_spacingOfCode_iff {n : Nat} : (∃ u, spacingOfCode n = some u) ↔ 2 ≤ n ∧ n ≤ 6 := by
  simp [spacingOfCode_iff]

theorem outside_iff {p : Bool} {α : Type} {v : Option α} : outside p v = true ↔ ¬(p = true → ∃ a, v = some a) := by
  cases p <;> cases v <;> simp [outside]

theorem clampNat_eq {lo hi : Nat} (h : lo ≤ hi) (n : Nat) : clampNat lo hi n = max lo (min hi n) := by
  unfold clampNat
  split
  · omega
  · split <;> omega

theorem clampInt_eq {lo hi : Int} (h : lo ≤ hi) (n : Int) : clampInt lo hi n = max lo (min hi n) := by
  unfold clampInt
  split
  · omega
  · split <;> omega

/-! ### The checks (R22) -/

section

variable {r : FormatRequest} {s : State}

/-- R22: a present field keeps the code of its request. -/
theorem FormatRequest.code_take {α : Type} {n c : Nat} {new : Option α} {old : α} (code : α → Nat)
    (hcode : ∀ a, new = some a → code a = c) (hsome : r.has n = true → ∃ a, new = some a) :
    code (r.take n new old) = if r.has n then c else code old := by
  unfold FormatRequest.take
  split
  · next h =>
    obtain ⟨a, ha⟩ := hsome h
    rw [ha]
    exact hcode a ha
  · rfl

/-- R22: the margins that would stand leave the line its room, and the print point its place. -/
def FormatRequest.apart (r : FormatRequest) (s : State) : Prop :=
  (r.newLeft s.composer.format ≠ s.composer.format.leftMargin ∨
    r.newRight s.composer.format ≠ s.composer.format.rightMargin →
      r.newLeft s.composer.format + 120 ≤ r.newRight s.composer.format) ∧
  (r.newRight s.composer.format ≠ s.composer.format.rightMargin → composingCells s.line.cells ≠ [] →
    s.composer.printPoint ≤ r.newRight s.composer.format)

theorem not_imp_and_imp_iff {a b c d e : Prop} :
    ¬((a ∨ b → c) ∧ (b → d → e)) ↔ a ∧ ¬c ∨ b ∧ (¬c ∨ d ∧ ¬e) := by
  tauto

theorem FormatRequest.not_apart_iff : ¬r.apart s ↔
    (r.has 1 && r.left != s.composer.format.leftMargin && marginsClose r s.composer.format) = true ∨
    (r.has 2 && r.right != s.composer.format.rightMargin && (marginsClose r s.composer.format ||
      (composingCells s.line.cells != [] && r.right < s.composer.printPoint))) = true := by
  have hleft : r.newLeft s.composer.format ≠ s.composer.format.leftMargin ↔
      r.has 1 = true ∧ r.left ≠ s.composer.format.leftMargin := by
    unfold FormatRequest.newLeft
    split <;> simp [*]
  have hright : r.newRight s.composer.format ≠ s.composer.format.rightMargin ↔
      r.has 2 = true ∧ r.right ≠ s.composer.format.rightMargin := by
    unfold FormatRequest.newRight
    split <;> simp [*]
  have hclose : marginsClose r s.composer.format = true ↔
      ¬r.newLeft s.composer.format + 120 ≤ r.newRight s.composer.format := by
    rw [marginsClose, decide_eq_true_iff]
    omega
  have hpoint (h : r.has 2 = true) : (decide (r.right < s.composer.printPoint) = true) ↔
      ¬s.composer.printPoint ≤ r.newRight s.composer.format := by
    rw [FormatRequest.newRight, if_pos h, decide_eq_true_iff, Nat.not_le]
  rw [FormatRequest.apart, not_imp_and_imp_iff, Bool.and_eq_true, Bool.and_eq_true, Bool.and_eq_true,
    Bool.and_eq_true, Bool.or_eq_true, Bool.and_eq_true, bne_iff_ne, bne_iff_ne, bne_iff_ne, hclose, ← hleft,
    ← hright]
  refine or_congr_right (and_congr_right fun h => or_congr_right (and_congr_right fun _ => ?_))
  exact (hpoint (hright.mp h).1).symm

/-- R22: the pitch of a request may be changed while the line is open only to itself. -/
def FormatRequest.pitchFree (r : FormatRequest) (s : State) : Prop :=
  r.has 0 = true → r.pitch ≠ some s.composer.format.pitch → composingCells s.line.cells = []

/-- R22: the mode of a request may be changed while a cell is HELD only to itself. -/
def FormatRequest.modeFree (r : FormatRequest) (s : State) : Prop :=
  r.has 5 = true → r.mode ≠ some s.composer.format.mode → ∀ c ∈ s.line.cells, c.state ≠ .held

theorem FormatRequest.not_pitchFree_iff : ¬r.pitchFree s ↔
    (r.has 0 && r.pitch != some s.composer.format.pitch && composingCells s.line.cells != []) = true := by
  rw [Bool.and_eq_true, Bool.and_eq_true, bne_iff_ne, bne_iff_ne, FormatRequest.pitchFree]
  simp only [Classical.not_imp, and_assoc]

theorem FormatRequest.not_modeFree_iff : ¬r.modeFree s ↔
    (r.has 5 && r.mode != some s.composer.format.mode && s.line.cells.any Cell.isHeld) = true := by
  rw [Bool.and_eq_true, Bool.and_eq_true, bne_iff_ne, List.any_eq_true, FormatRequest.modeFree]
  simp only [Classical.not_imp, not_forall, not_not, and_assoc, Cell.isHeld, beq_iff_eq]

/-- R22: the fields between the margins and the mode's own check lie within their sets. -/
def FormatRequest.middle (r : FormatRequest) : Prop :=
  (r.has 3 = true → ∃ v, r.spacing = some v) ∧ (r.has 4 = true → ∃ v, r.alignment = some v) ∧
    (r.has 5 = true → ∃ v, r.mode = some v)

theorem FormatRequest.not_middle_iff : ¬r.middle ↔
    (outside (r.has 3) r.spacing || outside (r.has 4) r.alignment || outside (r.has 5) r.mode) = true := by
  rw [Bool.or_eq_true, Bool.or_eq_true, outside_iff, outside_iff, outside_iff, FormatRequest.middle, not_and_or,
    not_and_or, or_assoc]

/-- R22: the last two fields lie within their sets. -/
def FormatRequest.tail (r : FormatRequest) : Prop :=
  (r.has 6 = true → ∃ v, r.wrap = some v) ∧ (r.has 7 = true → ∃ v, r.spelling = some v)

theorem FormatRequest.not_tail_iff : ¬r.tail ↔
    (outside (r.has 6) r.wrap || outside (r.has 7) r.spelling) = true := by
  rw [Bool.or_eq_true, outside_iff, outside_iff, FormatRequest.tail, not_and_or]

theorem FormatRequest.refusal_of_surplus (h : 2048 ≤ r.present) : r.refusal s = some .badValue := if_pos h

section

variable (hpresent : ¬2048 ≤ r.present)
include hpresent

theorem FormatRequest.refusal_of_pitchValue (h : ¬(r.has 0 = true → ∃ p, r.pitch = some p)) :
    r.refusal s = some .badValue := by
  unfold FormatRequest.refusal
  exact (if_neg hpresent).trans (if_pos (outside_iff.mpr h))

variable (hpitch : r.has 0 = true → ∃ p, r.pitch = some p)
include hpitch

theorem FormatRequest.refusal_of_pitchFree (h : ¬r.pitchFree s) : r.refusal s = some .lineOpen := by
  unfold FormatRequest.refusal
  exact (if_neg hpresent).trans ((if_neg (mt outside_iff.mp (not_not_intro hpitch))).trans
    (if_pos (FormatRequest.not_pitchFree_iff.mp h)))

variable (hfree : r.pitchFree s)
include hfree

/-- R22: past the pitch, the margins and the middle fields decide. -/
theorem FormatRequest.refusal_of_pitch : r.refusal s =
    if (r.has 1 && r.left != s.composer.format.leftMargin && marginsClose r s.composer.format) = true then
      some .badValue
    else if (r.has 2 && r.right != s.composer.format.rightMargin && (marginsClose r s.composer.format ||
        (composingCells s.line.cells != [] && r.right < s.composer.printPoint))) = true then some .badValue
    else if (outside (r.has 3) r.spacing || outside (r.has 4) r.alignment || outside (r.has 5) r.mode) = true then
      some .badValue
    else if (r.has 5 && r.mode != some s.composer.format.mode && s.line.cells.any Cell.isHeld) = true then
      some .heldText
    else if (outside (r.has 6) r.wrap || outside (r.has 7) r.spelling) = true then some .badValue
    else none := by
  unfold FormatRequest.refusal
  exact (if_neg hpresent).trans ((if_neg (mt outside_iff.mp (not_not_intro hpitch))).trans
    (if_neg (mt FormatRequest.not_pitchFree_iff.mpr (not_not_intro hfree))))

theorem FormatRequest.refusal_of_not_apart (h : ¬(r.apart s ∧ r.middle)) : r.refusal s = some .badValue := by
  rw [FormatRequest.refusal_of_pitch hpresent hpitch hfree]
  by_cases hapart : r.apart s
  · have hmiddle := FormatRequest.not_middle_iff.mp fun hm => h ⟨hapart, hm⟩
    rw [if_pos hmiddle, ite_self, ite_self]
  · rcases FormatRequest.not_apart_iff.mp hapart with hclose | hclose
    · rw [if_pos hclose]
    · rw [if_pos hclose, ite_self]

variable (hapart : r.apart s) (hmiddle : r.middle)
include hapart hmiddle

/-- R22: past the margins, the mode and the last fields decide. -/
theorem FormatRequest.refusal_of_apart : r.refusal s =
    if (r.has 5 && r.mode != some s.composer.format.mode && s.line.cells.any Cell.isHeld) = true then
      some .heldText
    else if (outside (r.has 6) r.wrap || outside (r.has 7) r.spelling) = true then some .badValue
    else none := by
  obtain ⟨hleft, hright⟩ := not_or.mp (mt FormatRequest.not_apart_iff.mpr (not_not_intro hapart))
  rw [FormatRequest.refusal_of_pitch hpresent hpitch hfree, if_neg hleft, if_neg hright,
    if_neg (mt FormatRequest.not_middle_iff.mpr (not_not_intro hmiddle))]

theorem FormatRequest.refusal_of_held (h : ¬r.modeFree s) : r.refusal s = some .heldText := by
  rw [FormatRequest.refusal_of_apart hpresent hpitch hfree hapart hmiddle,
    if_pos (FormatRequest.not_modeFree_iff.mp h)]

variable (hmode : r.modeFree s)
include hmode

theorem FormatRequest.refusal_of_tail (h : ¬r.tail) : r.refusal s = some .badValue := by
  rw [FormatRequest.refusal_of_apart hpresent hpitch hfree hapart hmiddle,
    if_neg (mt FormatRequest.not_modeFree_iff.mpr (not_not_intro hmode)), if_pos (FormatRequest.not_tail_iff.mp h)]

theorem FormatRequest.refusal_of_all (h : r.tail) : r.refusal s = none := by
  rw [FormatRequest.refusal_of_apart hpresent hpitch hfree hapart hmiddle,
    if_neg (mt FormatRequest.not_modeFree_iff.mpr (not_not_intro hmode)),
    if_neg (mt FormatRequest.not_tail_iff.mpr (not_not_intro h))]

end

end

/-! ### The change (R23, R134) -/

section

variable {s : State}

/-- R117, R69: what follows at once at the Zone Monitor and the Print Engine. -/
def formatFollows (speed p : Nat) (f : Format) (s : State) : State :=
  speedChanged speed (rearmZone f (rearmAfter p s))

theorem rearmZone_rearmAfter (p : Nat) (f : Format) (x : State) : rearmZone f (rearmAfter p x) = { x with zone :=
    if (x.composer.printPoint ≠ p ∨ x.composer.format.rightMargin ≠ f.rightMargin ∨
        x.composer.format.bellZone ≠ f.bellZone) ∧ x.composer.printPoint < x.composer.format.zoneStart then
      { x.zone with bellArmed := true } else x.zone } := by
  have hbell : rearmBell x = { x with zone :=
      if x.composer.printPoint < x.composer.format.zoneStart then { x.zone with bellArmed := true } else x.zone } := by
    unfold rearmBell
    split <;> rfl
  have hagain : rearmBell (rearmBell x) = rearmBell x := by
    rw [hbell]
    unfold rearmBell
    split <;> rfl
  have hfields : (rearmAfter p x).composer = x.composer := by
    unfold rearmAfter rearmBell
    split
    · rfl
    · split <;> rfl
  unfold rearmZone
  rw [hfields]
  by_cases hp : x.composer.printPoint = p
  · rw [show rearmAfter p x = x from if_pos hp]
    by_cases hf : f.rightMargin ≠ x.composer.format.rightMargin ∨ f.bellZone ≠ x.composer.format.bellZone
    · rw [if_pos hf, hbell]
      simp only [ne_comm (a := f.rightMargin), ne_comm (a := f.bellZone)] at hf
      simp only [hf, or_true, true_and]
    · rw [if_neg hf]
      simp only [ne_comm (a := f.rightMargin), ne_comm (a := f.bellZone)] at hf
      simp only [hp, hf, ne_eq, not_true_eq_false, or_self, false_and, if_false]
  · rw [show rearmAfter p x = rearmBell x from if_neg hp, hagain, ite_self, hbell]
    simp only [ne_eq, hp, not_false_eq_true, true_or, true_and]

theorem speedChanged_eq (speed : Nat) (x : State) : speedChanged speed x = { x with engine :=
    { x.engine with groupWait := if x.effectiveSpeed = speed then x.engine.groupWait else none } } := by
  unfold speedChanged
  by_cases h : x.effectiveSpeed = speed
  · rw [if_neg (not_not_intro h), if_pos h]
  · rw [if_pos h, if_neg h]
    rfl

/-- The release advance reads neither the Zone Monitor nor the Print Engine. -/
theorem releaseAdvance_withZoneEngine (x : State) (z : ZoneMonitor) (e : Engine) :
    releaseAdvance { x with zone := z, engine := e } = { releaseAdvance x with zone := z, engine := e } := by
  cases h : x.line.releaseMark with
  | none => simp only [releaseAdvance, h]
  | some m => simp only [releaseAdvance, h]; rfl

theorem releaseAdvance_parts (x : State) : ∃ l, releaseAdvance x = { x with line := l } := by
  unfold releaseAdvance
  split
  · exact ⟨x.line, rfl⟩
  · exact ⟨_, rfl⟩

/-- The release advance and what follows at once do not meet. -/
theorem formatFollows_releaseAdvance (speed p : Nat) (f : Format) (x : State) :
    formatFollows speed p f (releaseAdvance x) = releaseAdvance (formatFollows speed p f x) := by
  unfold formatFollows
  simp only [speedChanged_eq, rearmZone_rearmAfter]
  refine Eq.trans ?_ (releaseAdvance_withZoneEngine x _ _).symm
  obtain ⟨l, hl⟩ := releaseAdvance_parts x
  rw [hl]
  rfl

theorem formatFollows_withdrawUser (speed p : Nat) (f : Format) (u : User) (x : State) :
    formatFollows speed p f (withdrawUser u x) = withdrawUser u (formatFollows speed p f x) := by
  unfold formatFollows
  simp only [speedChanged_eq, rearmZone_rearmAfter]
  rfl

/-- R22, R23: the state once a changed record has reached every block but the release advance and the lookup. -/
def formatTaken (g : Format) (s : State) : State :=
  let f := s.composer.format
  let relatches : Prop := g.leftMargin ≠ f.leftMargin ∧ s.line.cells = []
  let p := if relatches then g.leftMargin else s.composer.printPoint
  let rearms : Prop := (p ≠ s.composer.printPoint ∨ g.rightMargin ≠ f.rightMargin ∨ g.bellZone ≠ f.bellZone) ∧
    p < g.zoneStart
  let unmarked (w : Word) : Word :=
    if f.spelling = .hold ∧ g.spelling ≠ .hold then { w with holdMark := false } else w
  let skipped (w : Word) : Word :=
    if w.state = .queued ∨ w.state = .checking then { w with state := .skipped, skip := none } else w
  let words := s.spelling.words.map unmarked
  { s with
    composer := { s.composer with format := g, printPoint := p }
    line := if relatches then
      { s.line with composing := { s.line.composing with leftMargin := g.leftMargin } } else s.line
    zone := if rearms then { s.zone with bellArmed := true } else s.zone
    engine := { s.engine with
      groupWait := if effectiveSpeed g.speed s.impression.band = s.effectiveSpeed then s.engine.groupWait else none }
    spelling := if f.spelling ≠ .off ∧ g.spelling = .off then
      { s.spelling with words := words.map skipped, checkQueue := [], lookup := none }
    else { s.spelling with words := words } }

theorem relatchLeft_eq (g : Format) (s : State) :
    relatchLeft s.composer.format.leftMargin { s with composer := { s.composer with format := g } } =
      { s with
        composer := { s.composer with
          format := g
          printPoint := if g.leftMargin ≠ s.composer.format.leftMargin ∧ s.line.cells = [] then g.leftMargin
            else s.composer.printPoint }
        line := if g.leftMargin ≠ s.composer.format.leftMargin ∧ s.line.cells = [] then
          { s.line with composing := { s.line.composing with leftMargin := g.leftMargin } } else s.line } := by
  unfold relatchLeft
  dsimp only
  by_cases h : g.leftMargin ≠ s.composer.format.leftMargin ∧ s.line.cells = []
  · rw [if_pos h, if_pos h, if_pos h]
    rfl
  · rw [if_neg h, if_neg h, if_neg h]

/-- R134: the words as a change of the mode leaves them. -/
theorem spellingModeChanged_eq (old new : SpellingMode) (x : State) :
    spellingModeChanged old new x =
      (fun y => if old ≠ .off ∧ new = .off then withdrawUser .lookup y else y) { x with spelling :=
        if old ≠ .off ∧ new = .off then
          { x.spelling with
            words := (x.spelling.words.map fun w =>
              if old = .hold ∧ new ≠ .hold then { w with holdMark := false } else w).map fun w =>
                if w.state = .queued ∨ w.state = .checking then { w with state := .skipped, skip := none } else w
            checkQueue := [], lookup := none }
        else { x.spelling with words := x.spelling.words.map fun w =>
          if old = .hold ∧ new ≠ .hold then { w with holdMark := false } else w } } := by
  unfold spellingModeChanged
  by_cases hold : old = .hold ∧ new ≠ .hold <;> by_cases hoff : old ≠ .off ∧ new = .off
  · simp only [if_pos hold, if_pos hoff]
    rfl
  · simp only [if_pos hold, if_neg hoff]
  · simp only [if_neg hold, if_pos hoff, List.map_id']
    rfl
  · simp only [if_neg hold, if_neg hoff, List.map_id']

theorem changeFormat_eq (g : Format) (s : State) : changeFormat g s =
    if g.spelling = s.composer.format.spelling then formatTaken g s
    else if s.composer.format.spelling ≠ .off ∧ g.spelling = .off then
      releaseAdvance (withdrawUser .lookup (formatTaken g s))
    else releaseAdvance (formatTaken g s) := by
  have hshape : changeFormat g s = formatFollows s.effectiveSpeed s.composer.printPoint s.composer.format
      (if s.composer.format.spelling = g.spelling then
        spellingModeChanged s.composer.format.spelling g.spelling
          (relatchLeft s.composer.format.leftMargin { s with composer := { s.composer with format := g } })
      else releaseAdvance (spellingModeChanged s.composer.format.spelling g.spelling
          (relatchLeft s.composer.format.leftMargin { s with composer := { s.composer with format := g } }))) := rfl
  rw [hshape, relatchLeft_eq, spellingModeChanged_eq]
  by_cases hsame : g.spelling = s.composer.format.spelling
  · have hoff : ¬(s.composer.format.spelling ≠ .off ∧ g.spelling = .off) := fun ⟨h, h'⟩ => h (hsame ▸ h')
    simp only [if_pos hsame, if_pos hsame.symm, if_neg hoff, formatFollows, rearmZone_rearmAfter, speedChanged_eq,
      formatTaken]
    rfl
  · rw [if_neg (Ne.symm hsame), if_neg hsame, formatFollows_releaseAdvance]
    by_cases hoff : s.composer.format.spelling ≠ .off ∧ g.spelling = .off
    · simp only [if_pos hoff, formatFollows_withdrawUser]
      simp only [formatFollows, rearmZone_rearmAfter, speedChanged_eq, formatTaken, if_pos hoff]
      rfl
    · simp only [if_neg hoff]
      simp only [formatFollows, rearmZone_rearmAfter, speedChanged_eq, formatTaken, if_neg hoff]
      rfl

end

theorem exec_setFormat {s : State} (h : hears s) (tag : Byte) {body : List Byte} (hlength : body.length = 15) :
    exec (.setFormat tag body) s = .next (reply 0x10 tag (handleSetFormat body (hunt s))) :=
  congrArg Host.Outcome.next ((acceptFrame_of_hears h 0x10 tag (fixedBody 15 handleSetFormat) body).trans
    (congrArg _ (fixedBody_of_length _ hlength handleSetFormat)))

theorem handleSetFormat_of_refusal {s : State} {body : List Byte} {x : Status}
    (h : (FormatRequest.ofBody body).refusal s = some x) :
    handleSetFormat body s = (s, { status := x, data := [] }) := by
  simp only [handleSetFormat, h]
  rfl

theorem handleSetFormat_of_taken {s : State} {body : List Byte} (h : (FormatRequest.ofBody body).refusal s = none) :
    handleSetFormat body s =
      (textEnd (changeFormat ((FormatRequest.ofBody body).apply s.composer.format) s), { status := .ok, data := [] }) := by
  simp only [handleSetFormat, h]
  rfl

/-- Settles O16: the checks in their order, then the record and what follows at once. -/
theorem set_format_request_is_judged_whole : Obligations.set_format_request_is_judged_whole := by
  intro tag body s hheard hlength h f line has left right pitchValue pitchFree apart middleValues modeFree lastValues
    refused
  let r := FormatRequest.ofBody body
  have hrefused {x : Status} (hr : r.refusal h = some x) : refused x := by
    show exec (.setFormat tag body) s = _
    rw [exec_setFormat hheard tag hlength, handleSetFormat_of_refusal hr]
  have hpitchValue : pitchValue ↔ (r.has 0 = true → ∃ p, r.pitch = some p) :=
    imp_congr_right fun _ => Pitch.exists_code_iff.symm
  have hpitchFree : pitchFree ↔ r.pitchFree h :=
    imp_congr_right fun _ => imp_congr_left (not_congr (eq_comm.trans Pitch.ofCode_iff.symm))
  have hmiddle : middleValues ↔ r.middle :=
    and_congr (imp_congr_right fun _ => exists_spacingOfCode_iff.symm)
      (and_congr (imp_congr_right fun _ => Alignment.exists_code_iff.symm)
        (imp_congr_right fun _ => ComposingMode.exists_code_iff.symm))
  have hmodeFree : modeFree ↔ r.modeFree h :=
    imp_congr_right fun _ => imp_congr_left (not_congr (eq_comm.trans ComposingMode.ofCode_iff.symm))
  have htail : lastValues ↔ r.tail :=
    and_congr (imp_congr_right fun _ => exists_boolOfCode_iff.symm)
      (imp_congr_right fun _ => SpellingMode.exists_code_iff.symm)
  have hapart : apart ↔ r.apart h := Iff.rfl
  rw [hpitchValue, hpitchFree, hmiddle, hmodeFree, htail, hapart]
  refine ⟨fun hsurplus => hrefused (FormatRequest.refusal_of_surplus hsurplus), fun hlt => ?_,
    fun hlt hp hfree ha hm hmode hl => ?_⟩
  · have hle : ¬2048 ≤ r.present := Nat.not_le.mpr hlt
    exact ⟨fun hp => hrefused (FormatRequest.refusal_of_pitchValue hle hp),
      fun hp hfree => hrefused (FormatRequest.refusal_of_pitchFree hle hp hfree),
      fun hp hfree hbad => hrefused (FormatRequest.refusal_of_not_apart hle hp hfree hbad),
      fun hp hfree ha hm hmode => hrefused (FormatRequest.refusal_of_held hle hp hfree ha hm hmode),
      fun hp hfree ha hm hmode hl => hrefused (FormatRequest.refusal_of_tail hle hp hfree ha hm hmode hl)⟩
  · have htaken : r.refusal h = none :=
      FormatRequest.refusal_of_all (Nat.not_le.mpr hlt) hp hfree ha hm hmode hl
    obtain ⟨hspacing, halignment, hmodeSet⟩ := hm
    obtain ⟨hwrap, hspelling⟩ := hl
    refine ⟨r.apply f, changeFormat (r.apply f) h, ?_, FormatRequest.code_take Pitch.code ?_ hp, rfl, rfl,
      FormatRequest.code_take id ?_ hspacing, FormatRequest.code_take Alignment.code ?_ halignment,
      FormatRequest.code_take ComposingMode.code ?_ hmodeSet, FormatRequest.code_take boolCode ?_ hwrap,
      FormatRequest.code_take SpellingMode.code ?_ hspelling, ?_, ?_, rfl, changeFormat_eq (r.apply f) h⟩
    · rw [exec_setFormat hheard tag hlength, handleSetFormat_of_taken htaken]
      rfl
    · exact fun a => Pitch.ofCode_iff.mp
    · exact fun a ha => (spacingOfCode_iff.mp ha).2
    · exact fun a => Alignment.ofCode_iff.mp
    · exact fun a => ComposingMode.ofCode_iff.mp
    · exact fun a => boolOfCode_iff.mp
    · exact fun a => SpellingMode.ofCode_iff.mp
    · exact if_congr Iff.rfl (clampInt_eq (by decide) _) rfl
    · exact if_congr Iff.rfl (clampNat_eq (by decide) _) rfl

end Sys2Proof.Machine


/-! ## The sensor inputs and the cover (O20) -/

namespace Sys2Proof.Machine

section

variable {s : State}

/-! ### What the completion of an order leaves -/

theorem sensors_of_besideText {t : State} (h : besideText t = besideText s) : t.sensors = s.sensors := by
  have := congrArg State.sensors h
  exact this

theorem raise_sensors (k : ReportKind) (r : Nat) (d : List Byte) : (raise k r d s).sensors = s.sensors :=
  sensors_of_besideText (besideText_raise ..)

theorem finishStrikeGroup_sensors (c : Nat) : (finishStrikeGroup c s).sensors = s.sensors :=
  sensors_of_besideText (besideText_finishStrikeGroup ..)

theorem removeCells_sensors (b : Bool) (gone : Cell → Bool) : (removeCells b gone s).sensors = s.sensors :=
  sensors_of_besideText (besideText_removeCells ..)

theorem completeOrder_sensors : (completeOrder s).sensors = s.sensors := by
  unfold completeOrder
  split
  · dsimp only
    split
    · split
      · exact finishStrikeGroup_sensors ..
      · rfl
    · split
      · exact (raise_sensors ..).trans (removeCells_sensors ..)
      · rfl
    · exact (raise_sensors ..).trans (removeCells_sensors false _)
  · rfl

/-! ### The cover at the engine (R77, R78) -/

/-- R77: the engine paused for the open cover, with its work ended but for an order in BRAKE. -/
def coverPause (order : Option OrderProgress) (heat : Nat) (s : State) : State :=
  raise .engine 5 [1]
    { s with
      engine := { s.engine with
        state := .paused .cover, homing := none, homingLimit := none, order := order, groupWait := none,
        feed := none }
      impression := { s.impression with heat := s.impression.heat + heat } }

/-- R77: the states in which the opening of the cover does nothing. -/
def coverIdle (x : EngineState) : Prop := x = .unhomed ∨ x = .paused .cover ∨ ∃ r, x = .faulted r

theorem coverOpened_of_idle (h : coverIdle s.engine.state) : coverOpened s = s := by
  unfold coverOpened
  rcases h with h | h | ⟨r, h⟩ <;> rw [h]

theorem coverOpened_of_working (h : ¬coverIdle s.engine.state) : coverOpened s =
    if s.engine.order.any (fun o => o.phase == .brake) = true then
      completeOrder (coverPause s.engine.order (heatOfCut s false) s)
    else coverPause none (heatOfCut s false) s := by
  have hpause (e : Engine) (t : State) : enterState (.paused .cover) (setEngine e t) =
      raise .engine 5 [1] { t with engine := { e with state := .paused .cover } } :=
    enterState_of_not_faulted rfl _
  unfold coverOpened
  split
  · next hs => exact absurd (.inl hs) h
  · next hs => exact absurd (.inr (.inl hs)) h
  · next hs => exact absurd (.inr (.inr ⟨_, hs⟩)) h
  · dsimp only
    rw [hpause]
    split
    · rfl
    · rfl

theorem coverOpened_sensors : (coverOpened s).sensors = s.sensors := by
  by_cases h : coverIdle s.engine.state
  · rw [coverOpened_of_idle h]
  · rw [coverOpened_of_working h]
    split
    · exact completeOrder_sensors.trans (raise_sensors ..)
    · exact raise_sensors ..

theorem coverClosed_of_paused (h : s.engine.state = .paused .cover) : coverClosed s = beginHoming s := by
  rw [coverClosed, h]

theorem coverClosed_of_other (h : s.engine.state ≠ .paused .cover) : coverClosed s = s := by
  unfold coverClosed
  split
  · next hs => exact absurd hs h
  · rfl

theorem coverClosed_sensors : (coverClosed s).sensors = s.sensors := by
  by_cases h : s.engine.state = .paused .cover
  · rw [coverClosed_of_paused h, beginHoming_eq, raise_sensors]
  · rw [coverClosed_of_other h]

/-! ### The inputs (R169, R170) -/

theorem Sensors.get_set_self (x : Sensors) (i : Sensor) (v : Input) : (x.set i v).get i = v := by cases i <;> rfl

theorem tellEdge_sensors (i : Sensor) (w : Switch) : (tellEdge i w s).sensors = s.sensors := by
  unfold tellEdge
  split
  · exact coverOpened_sensors
  · exact coverClosed_sensors
  all_goals rfl

theorem EdgeSelection.reports_iff {e : EdgeSelection} {w : Switch} : e.reports w = true ↔
    e = .both ∨ e = .openGoing ∧ w = .opened ∨ e = .closeGoing ∧ w = .closed := by
  cases e <;> cases w <;> decide

theorem exec_rawLevelChange (i : Sensor) (l : Switch) (s : State) : exec (.rawLevelChange i l) s =
    .next { s with sensors := s.sensors.set i { s.sensors.get i with
      raw := l
      timer := if l = (s.sensors.get i).debounced then none
        else some ((s.sensors.get i).timer.getD (s.now + 80)) } } := by
  show execRawLevelChange i l s = _
  unfold execRawLevelChange
  cases h : (s.sensors.get i).timer with
  | none => simp only [h]; rfl
  | some t => simp only [h]; rfl

theorem exec_debounceExpiry_of_idle {i : Sensor} (h : (s.sensors.get i).timer = none) :
    exec (.debounceExpiry i) s = .next s := by
  simp only [exec, execDebounceExpiry, h]

theorem exec_debounceExpiry_of_edge {i : Sensor} {t : Time} (h : (s.sensors.get i).timer = some t)
    (hedge : (s.sensors.get i).raw ≠ (s.sensors.get i).debounced) :
    exec (.debounceExpiry i) s = .next (textEvent (acceptEdge i (s.reach t))) := by
  simp only [exec, execDebounceExpiry, h]
  exact if_neg hedge

end

/-- Settles O20: the debounce timer by its cases, and the cover by the engine's state. -/
theorem inputs_and_the_cover : Obligations.inputs_and_the_cover := by
  refine ⟨fun i s => ?inputs, fun s => ?cover⟩
  case inputs =>
    intro x withInput
    refine ⟨fun l hl => ?_, fun l hl ht => ?_, fun l t hl ht => ?_, exec_debounceExpiry_of_idle,
      fun t u v ht hedge hu hopened hclosed hother => ?edge⟩
    · rw [exec_rawLevelChange, if_pos hl]
    · rw [exec_rawLevelChange, if_neg hl, show (s.sensors.get i).timer = none from ht]
      rfl
    · have hkept : some ((s.sensors.get i).timer.getD (s.now + 80)) = x.timer := by
        rw [ht]
        rfl
      rw [exec_rawLevelChange, if_neg hl, hkept]
    case edge =>
      intro told code
      have hv : v = tellEdge i x.raw u := by
        cases i with
        | cover =>
          cases hraw : x.raw with
          | opened => exact hopened rfl hraw
          | closed => exact hclosed rfl hraw
        | paper => exact hother nofun
        | tape => exact hother nofun
        | ribbon => exact hother nofun
      have haccept : acceptEdge i (s.reach t) =
          if x.selection.reports x.raw = true then raiseSensor 0 i v else v := by
        rw [hv, hu]
        rfl
      have hdebounced : (v.sensors.get i).debounced = x.raw := by
        rw [hv, tellEdge_sensors, hu]
        exact congrArg Input.debounced (Sensors.get_set_self ..)
      have hraise : raiseSensor 0 i v = raise .sensor 0 [code, if x.raw = .opened then 0 else 1] v := by
        have hcode : byte (sensorCode i) = code := by cases i <;> rfl
        have hswitch : byte (switchCode x.raw) = if x.raw = .opened then 0 else 1 := by cases x.raw <;> rfl
        rw [raiseSensor, hdebounced, hcode, hswitch]
      rw [exec_debounceExpiry_of_edge ht hedge, haccept]
      refine ⟨fun h => ?_, fun h => ?_⟩
      · rw [if_pos (EdgeSelection.reports_iff.mpr h), hraise]
      · rw [if_neg (mt EdgeSelection.reports_iff.mp h)]
  case cover =>
    intro idleState paused
    refine ⟨coverOpened_of_idle, fun h ho => ?_, fun o h ho hphase => ?_, fun o h ho hphase => ?_,
      coverClosed_of_other, fun h => (coverClosed_of_paused h).trans (beginHoming_eq s)⟩
    · have hbrake : ¬s.engine.order.any (fun o => o.phase == .brake) = true := by
        rw [Option.any_eq_true]
        rintro ⟨o, hsome, hbrake⟩
        exact (ho o hsome).2 (by simpa using hbrake)
      have hheat : heatOfCut s false = 0 := by
        unfold heatOfCut
        cases horder : s.engine.order with
        | none => rfl
        | some o =>
          obtain ⟨hdrive, hbrake⟩ := ho o horder
          dsimp only
          split
          · contradiction
          · contradiction
          · rfl
      rw [coverOpened_of_working h, if_neg hbrake, hheat]
      rfl
    · have hheat : heatOfCut s false = min o.drivePulse (s.now - o.driveStart) := by
        simp only [heatOfCut, ho, hphase, cutDrive]
      rw [coverOpened_of_working h, hheat, ho]
      simp only [Option.any_some, hphase]
      rfl
    · have hheat : heatOfCut s false = 0 := by
        simp only [heatOfCut, ho, hphase, Bool.false_eq_true, if_false]
      rw [coverOpened_of_working h, hheat, ho]
      simp only [Option.any_some, hphase]
      rfl

end Sys2Proof.Machine


/-! ## The queries (O21) -/

namespace Sys2Proof.Machine

section

variable {s : State}

theorem exec_getStatus (h : hears s) (tag : Byte) :
    exec (.getStatus tag []) s = .next (reply 0x20 tag (hunt s, { status := .ok, data := statusData s })) :=
  congrArg Host.Outcome.next (acceptFrame_of_hears h 0x20 tag (fixedBody 0 handleGetStatus) [])

theorem exec_getLine (h : hears s) (tag first : Byte) :
    exec (.getLine tag [first]) s = .next (reply 0x21 tag (handleGetLine [first] (hunt s))) :=
  congrArg Host.Outcome.next (acceptFrame_of_hears h 0x21 tag (fixedBody 1 handleGetLine) [first])

theorem exec_getWord (h : hears s) (tag : Byte) (body : List Byte) :
    exec (.getWord tag body) s = .next (reply 0x22 tag (handleGetWord body (hunt s))) :=
  congrArg Host.Outcome.next (acceptFrame_of_hears h 0x22 tag handleGetWord body)

theorem exec_getFormat (h : hears s) (tag : Byte) : exec (.getFormat tag []) s =
    .next (reply 0x23 tag (hunt s, { status := .ok, data := s.composer.format.bytes })) :=
  congrArg Host.Outcome.next (acceptFrame_of_hears h 0x23 tag (fixedBody 0 handleGetFormat) [])

theorem exec_getWheel (h : hears s) (tag f : Byte) :
    exec (.getWheel tag [f]) s = .next (reply 0x24 tag (handleGetWheel [f] (hunt s))) :=
  congrArg Host.Outcome.next (acceptFrame_of_hears h 0x24 tag (fixedBody 1 handleGetWheel) [f])

theorem handleGetLine_of_past {first : Byte} (h : s.line.cells.length < first.toNat) :
    handleGetLine [first] s = (s, { status := .badValue, data := [] }) := if_pos h

theorem handleGetLine_of_within {first : Byte} (h : first.toNat ≤ s.line.cells.length) :
    handleGetLine [first] s = (s, { status := .ok, data := lineData s first.toNat }) := if_neg (Nat.not_lt.mpr h)

theorem handleGetWheel_of_past {f : Byte} (h : 96 ≤ f.toNat) :
    handleGetWheel [f] s = (s, { status := .badValue, data := [] }) := if_pos h

theorem handleGetWheel_of_within {f : Byte} (h : f.toNat ≤ 95) :
    handleGetWheel [f] s = (s, { status := .ok, data := wheelData s.wheel f.toNat }) := if_neg (Nat.not_lt.mpr h)

/-! ### GET-WORD (R141) -/

theorem handleGetWord_of_none {body : List Byte} (hbody : body.length ≤ 1) (h : chosenWord body s = none) :
    handleGetWord body s = (s, { status := .notFound, data := [] }) := by
  rw [handleGetWord, if_neg (by omega), h] <;> rfl

theorem handleGetWord_of_some {body : List Byte} {w : Word} (hbody : body.length ≤ 1)
    (h : chosenWord body s = some w) : handleGetWord body s = (s, { status := .ok, data := wordData s w }) := by
  rw [handleGetWord, if_neg (by omega), h]

theorem mem_unknownWords {w : Word} {words : List Word} :
    w ∈ unknownWords words ↔ w ∈ words ∧ w.state = .unknown ∧ w.accepted = false := by
  simp [unknownWords]

theorem unknownWords_eq_nil {words : List Word} (h : ∀ w ∈ words, w.state = .unknown → w.accepted = true) :
    unknownWords words = [] := by
  refine List.eq_nil_iff_forall_not_mem.mpr fun w hw => ?_
  obtain ⟨hmem, hstate, haccepted⟩ := mem_unknownWords.mp hw
  rw [h w hmem hstate] at haccepted
  cases haccepted

theorem oldestUnknown_of_none (h : ∀ w ∈ s.spelling.words, w.state = .unknown → w.accepted = true) :
    oldestUnknown s = none := by
  rw [oldestUnknown, unknownWords_eq_nil h, List.findSome?_eq_none_iff]
  exact fun _ _ => rfl

/-- R141: the word whose first cell stands earliest. -/
theorem oldestUnknown_of_first {before after : List Cell} {c : Cell} {w : Word}
    (hcells : s.line.cells = before ++ c :: after) (hw : w ∈ s.spelling.words) (hstate : w.state = .unknown)
    (haccepted : w.accepted = false) (hfirst : w.first = c.id) (hnodup : (s.spelling.words.map (·.first)).Nodup)
    (hbefore : ∀ d ∈ before, ∀ x ∈ s.spelling.words, x.state = .unknown → x.accepted = false → x.first ≠ d.id) :
    oldestUnknown s = some w := by
  have hnone : before.findSome? (fun d => (unknownWords s.spelling.words).find? fun x => x.first == d.id) = none := by
    rw [List.findSome?_eq_none_iff]
    intro d hd
    rw [List.find?_eq_none]
    intro x hx
    obtain ⟨hmem, hunknown, hfree⟩ := mem_unknownWords.mp hx
    simpa using hbefore d hd x hmem hunknown hfree
  have hfound : (unknownWords s.spelling.words).find? (fun x => x.first == c.id) = some w := by
    have hmem : w ∈ unknownWords s.spelling.words := mem_unknownWords.mpr ⟨hw, hstate, haccepted⟩
    obtain ⟨x, hx⟩ : ∃ x, (unknownWords s.spelling.words).find? (fun x => x.first == c.id) = some x :=
      Option.isSome_iff_exists.mp (List.find?_isSome.mpr ⟨w, hmem, by simpa using hfirst⟩)
    have hxw : x = w := by
      have hxfirst : x.first = c.id := by simpa using List.find?_some hx
      exact List.inj_on_of_nodup_map hnodup (mem_unknownWords.mp (List.mem_of_find?_eq_some hx)).1 hw
        (hxfirst.trans hfirst.symm)
    rw [hx, hxw]
  rw [oldestUnknown, hcells, List.findSome?_append, hnone, Option.none_or, List.findSome?_cons, hfound]

/-! ### Fields of the replies (R185) -/

theorem optByte_eq (o : Option Nat) : optByte o = match o with | some n => byte n | none => 0xFF := by
  cases o <;> rfl

theorem byte_boolCode (b : Bool) : byte (boolCode b) = if b then 1 else 0 := by
  cases b <;> rfl

theorem mul_boolCode (n : Nat) (b : Bool) : n * boolCode b = if b then n else 0 := by
  cases b <;> simp [boolCode]

end

/-- Settles O21: each query's layout, field by field. -/
theorem queries_answer_the_state_and_change_nothing : Obligations.queries_answer_the_state_and_change_nothing := by
  intro tag s hheard h answers index bit wordBytes
  have hword (w : Word) : wordData s w = wordBytes w := by
    simp only [wordData, Word.bytes, wordBytes, wordCells, List.append_assoc, List.cons_append, List.nil_append]
    refine congrArg _ (congrArg _ (congrArg _ (congrArg _ (congrArg _ ?_))))
    simp only [List.cons.injEq, List.append_cancel_left_eq, byte_boolCode, usedSlots, and_true, true_and]
    refine ⟨?_, ?_, ?_, ?_⟩
    · cases w.state <;> rfl
    · cases w.skip with
      | none => rfl
      | some r => cases r <;> rfl
    · cases s.spelling.unit <;> rfl
    · cases s.spelling.status <;> rfl
  refine ⟨?status, fun first hlt => ?_, fun first hle => ?line, fun a b rest => ?_, fun id hnone => ?_,
    fun id w hfind => ?_, fun hnone => ?_, fun before c after w hcells hw hstate haccepted hfirst hnodup hbefore => ?_,
    ?format, fun f hf => ?_, fun f hf => ?wheel⟩
  case status =>
    have hcarriage : carriageBytes s.engine.carriage =
        match s.engine.carriage with | none => [0x80, 0x00] | some c => be16 (c % 65536).toNat := by
      cases s.engine.carriage <;> rfl
    have hsensors : sensorBits s.sensors =
        bit (s.sensors.cover.debounced == .opened) 1 + bit (s.sensors.paper.debounced == .opened) 2 +
          bit (s.sensors.tape.debounced == .opened) 4 + bit (s.sensors.ribbon.debounced == .opened) 8 := by
      simp only [sensorBits, mul_boolCode] <;> rfl
    have hactive : byte (activeCode s) = match activeProfile s.wheel with | some p => byte p.code | none => 0 := by
      unfold activeCode
      cases activeProfile s.wheel <;> rfl
    refine (exec_getStatus hheard tag).trans ?_
    rw [statusData, hcarriage, hsensors, hactive] <;> rfl
  case line =>
    have hindex (p : Cell → Bool) : optByte (s.line.cells.findIdx? p) = index p := by
      simp only [index]
      cases s.line.cells.findIdx? p <;> rfl
    have hmark : optByte (s.line.releaseMark.bind (cellIndex s.line.cells)) =
        match s.line.releaseMark with | some m => index (fun c => c.id == m) | none => 0xFF := by
      cases s.line.releaseMark with
      | none => rfl
      | some m => exact hindex _
    have hcell (c : Cell) : c.bytes = [byte c.id, byte c.kind.code, c.glyph.getD 0xFF] ++ be16 c.start ++
        be16 c.advance ++ [byte c.state.code, byte (bit c.bold 1 + bit c.underline 2 + bit c.pastMargin 4),
          byte (bit c.underlineDropped 1 + bit c.unprintable 2),
          (match c.word with | some w => byte w | none => 0xFF), byte c.strikes.length] := by
      have hword : optByte c.word = match c.word with | some w => byte w | none => 0xFF := by
        cases c.word <;> rfl
      simp only [Cell.bytes, Cell.attributeBits, Cell.flagBits, mul_boolCode, hword] <;> rfl
    refine (exec_getLine hheard tag first).trans ?_
    rw [handleGetLine_of_within (s := hunt s) hle, show lineData (hunt s) first.toNat = lineData s first.toNat from rfl,
      lineData, hmark, show optByte (lineEndIndex s.line.cells) = _ from hindex _, funext hcell] <;> rfl
  case format =>
    refine (exec_getFormat hheard tag).trans ?_
    rw [Format.bytes, byte_boolCode] <;> rfl
  case wheel =>
    have hcache (i : Nat) : byte (cacheCode s.wheel i) =
        match s.wheel.cache[i]? with | some (some p) => byte p.code | _ => 0 := by
      unfold cacheCode
      match s.wheel.cache[i]? with
      | none => rfl
      | some none => rfl
      | some (some p) => rfl
    have hanswer (header petals : List Byte) (hprofile : profileData (activeProfile s.wheel) f.toNat = header ++ petals) :
        answers (.getWheel tag [f]) 0x24 .ok
          ([byte s.wheel.mounted, byte s.wheel.resolution.code, byte s.wheel.directoryState.code,
            (match s.wheel.cache[0]? with | some (some p) => byte p.code | _ => 0),
            (match s.wheel.cache[1]? with | some (some p) => byte p.code | _ => 0),
            byte s.wheel.staging.state.code, byte s.wheel.composites.length] ++ header ++ petals) := by
      refine (exec_getWheel hheard tag f).trans ?_
      rw [handleGetWheel_of_within (s := hunt s) hf, show (hunt s).wheel = s.wheel from rfl, wheelData, hcache, hcache,
        hprofile, List.append_assoc] <;> rfl
    cases hactive : activeProfile s.wheel with
    | none =>
      refine ⟨[0, 0, 0, 0xFF, 0], [], hanswer _ _ (by rw [hactive]; rfl), fun _ => ⟨rfl, rfl⟩, nofun⟩
    | some p =>
      have hpetal (e : PetalEntry) :
          e.bytes = [e.glyph, byte e.width, byte (e.impression + bit e.accent 128)] := rfl
      refine ⟨[byte p.code, byte p.pitch.code, byte p.spaceWidth,
          (match p.underscore with | some u => byte u | none => 0xFF),
          byte ((p.petals.drop f.toNat).take 14).length],
        ((p.petals.drop f.toNat).take 14).flatMap PetalEntry.bytes, hanswer _ _ ?_, nofun, ?_⟩
      · rw [hactive, profileData, optByte_eq]
      · rintro q hq
        obtain rfl := Option.some.inj hq
        exact ⟨rfl, congrArg (List.flatMap · _) (funext hpetal)⟩
  · exact (exec_getLine hheard tag first).trans (by rw [handleGetLine_of_past (s := hunt s) hlt])
  · exact exec_getWord hheard tag (a :: b :: rest)
  · have hfind : findWord s.spelling.words id.toNat = none := by simpa [findWord] using hnone
    exact (exec_getWord hheard tag [id]).trans (by rw [handleGetWord_of_none (s := hunt s) (body := [id]) le_rfl hfind])
  · exact (exec_getWord hheard tag [id]).trans (by
      rw [handleGetWord_of_some (s := hunt s) (body := [id]) le_rfl hfind, ← hword]; rfl)
  · exact (exec_getWord hheard tag []).trans (by
      rw [handleGetWord_of_none (s := hunt s) (body := []) (Nat.zero_le _) (oldestUnknown_of_none (s := hunt s) hnone)])
  · have holdest := oldestUnknown_of_first hcells hw hstate haccepted hfirst hnodup hbefore
    exact (exec_getWord hheard tag []).trans (by
      rw [handleGetWord_of_some (s := hunt s) (body := []) (Nat.zero_le _) holdest, ← hword]; rfl)
  · exact (exec_getWheel hheard tag f).trans (by rw [handleGetWheel_of_past (s := hunt s) hf])

end Sys2Proof.Machine


/-! ## The display (O22, O23) -/

namespace Sys2Proof.Machine

section

variable {s : State}

/-! ### The requests and timers (R148, R149, R151 to R153) -/

theorem exec_showMessage (h : hears s) (tag : Byte) (body : List Byte) :
    exec (.showMessage tag body) s = .next (reply 0x30 tag (handleShowMessage body (hunt s))) :=
  congrArg Host.Outcome.next (acceptFrame_of_hears h 0x30 tag handleShowMessage body)

theorem exec_clearMessage (h : hears s) (tag : Byte) :
    exec (.clearMessage tag []) s = .next (reply 0x31 tag (handleClearMessage [] (hunt s))) :=
  congrArg Host.Outcome.next (acceptFrame_of_hears h 0x31 tag (fixedBody 0 handleClearMessage) [])

theorem exec_setContrast (h : hears s) (tag v : Byte) :
    exec (.setContrast tag [v]) s = .next (reply 0x32 tag (handleSetContrast [v] (hunt s))) :=
  congrArg Host.Outcome.next (acceptFrame_of_hears h 0x32 tag (fixedBody 1 handleSetContrast) [v])

theorem isGlyphCode_iff {c : Byte} :
    isGlyphCode c = true ↔ (0x21 ≤ c.toNat ∧ c.toNat ≤ 0x7E) ∨ 0xA1 ≤ c.toNat := by
  rw [isGlyphCode, Bool.or_eq_true, Bool.and_eq_true]
  exact or_congr (and_congr decide_eq_true_iff decide_eq_true_iff) decide_eq_true_iff

theorem isShownCode_iff {c : Byte} :
    isShownCode c = true ↔ (0x20 ≤ c.toNat ∧ c.toNat ≤ 0x7E) ∨ 0xA1 ≤ c.toNat := by
  rw [isShownCode, Bool.or_eq_true, isGlyphCode_iff, isSpaceCode, beq_iff_eq]
  omega

/-- R151: the overlay of a message; a duration of 0 has no timer. -/
def messageOverlay (n : Byte) (codes : List Byte) (now : Time) : Overlay :=
  { codes := codes, expires := if n = 0 then none else some (now + 1000 * n.toNat) }

theorem handleShowMessage_of_allowed {n : Byte} {codes : List Byte}
    (h : codes.length ≤ 28 ∧ codes.all isShownCode = true) : handleShowMessage (n :: codes) s =
      (render { s with display := { s.display with overlay := some (messageOverlay n codes s.now) } },
        { status := .ok, data := [] }) := by
  have hexpires : (if n.toNat = 0 then none else some (s.now + n.toNat * 1000)) =
      if n = 0 then none else some (s.now + 1000 * n.toNat) := by
    rw [Nat.mul_comm]
    exact if_congr (eq_iff_toNat_eq (c := 0)).symm rfl rfl
  rw [messageOverlay, ← hexpires]
  exact if_pos h

theorem handleShowMessage_of_not_allowed {n : Byte} {codes : List Byte}
    (h : ¬(codes.length ≤ 28 ∧ codes.all isShownCode = true)) :
    handleShowMessage (n :: codes) s = (s, { status := .badValue, data := [] }) := if_neg h

end

/-- Settles O22. -/
theorem display_requests_and_timers : Obligations.display_requests_and_timers := by
  intro tag s h d shown
  refine ⟨fun hheard => exec_showMessage hheard tag [], fun n codes hheard => ?message, fun hheard hnone => ?_,
    fun hheard hsome => ?_, fun v hheard => exec_setContrast hheard tag v, fun o t ho ht => ?_, fun hnone => ?_,
    rfl, rfl⟩
  case message =>
    intro allowed
    have hallowed : codes.length ≤ 28 ∧ codes.all isShownCode = true ↔ allowed := by
      rw [List.all_eq_true]
      exact and_congr_right fun _ => forall_congr' fun c => imp_congr_right fun _ => isShownCode_iff
    rw [exec_showMessage hheard]
    refine ⟨fun hnot => ?_, fun hok => ?_⟩
    · rw [handleShowMessage_of_not_allowed (mt hallowed.mp hnot)]
    · rw [handleShowMessage_of_allowed (hallowed.mpr hok)]
      rfl
  · rw [exec_clearMessage hheard, handleClearMessage, if_pos (show (hunt s).display.overlay = none from hnone)]
    rfl
  · rw [exec_clearMessage hheard, handleClearMessage, if_neg (show (hunt s).display.overlay ≠ none from hsome)]
    rfl
  · have hexpiry : overlayExpiry s = some t := by
      rw [overlayExpiry, show s.display.overlay = some o from ho]
      exact ht
    simp only [exec, execOverlayTimer, hexpiry]
    rfl
  · have hexpiry : overlayExpiry s = none := by
      rw [overlayExpiry]
      cases ho : s.display.overlay with
      | none => rfl
      | some o => exact hnone o ho
    simp only [exec, execOverlayTimer, hexpiry]

/-! ### The render (R143 to R150) -/

theorem isFaulted_iff {x : EngineState} : x.isFaulted = true ↔ ∃ r, x = .faulted r := by
  cases x <;> simp [EngineState.isFaulted]

theorem isPaused_iff {x : EngineState} : x.isPaused = true ↔ ∃ r, x = .paused r := by
  cases x <;> simp [EngineState.isPaused]

section

variable {s : State}

/-- R147: the display that a render leaves. -/
def renderedDisplay (s : State) : Display :=
  { placeCursor s with
    cells := textCells { s with display := placeCursor s } ++ statusCells { s with display := placeCursor s } }

theorem render_of_rendered (h : s.display.rendered = true) : render s = { s with display := renderedDisplay s } := by
  rw [render, if_pos h]
  rfl

theorem padCells_getElem? {n k : Nat} (h : k < n) (cells : List DisplayCell) :
    (padCells n cells)[k]? = some ((cells[k]?).getD .blank) := by
  rw [padCells]
  by_cases hk : k < cells.length
  · rw [List.getElem?_append_left (by rw [List.length_take]; omega), List.getElem?_take_of_lt h,
      List.getElem?_eq_getElem hk]
    rfl
  · rw [List.getElem?_append_right (by rw [List.length_take]; omega), List.getElem?_replicate_of_lt (by
      rw [List.length_take]; omega), List.getElem?_eq_none (by omega)]
    rfl

theorem withCursor_getElem? (on : Bool) (c k : Nat) (cells : List DisplayCell) :
    (withCursor on c cells)[k]? =
      (cells[k]?).map fun x => { x with underlineRow := x.underlineRow || (on && k == c) } := by
  unfold withCursor
  cases on with
  | false => simp
  | true =>
    rw [if_pos rfl, List.getElem?_modify]
    refine congrArg (Option.map · _) (funext fun x => ?_)
    by_cases hk : c = k
    · simp [hk]
    · have hne : (k == c) = false := beq_false_of_ne (Ne.symm hk)
      simp [hk, hne]

/-- A text column of a display with no overlay. -/
theorem textCells_getElem? {k : Nat} (h : s.display.overlay = none) (hk : k < 28) : (textCells s)[k]? =
    some (let x := (((s.line.cells[s.display.windowStart + k]?).map (showCell s)).getD .blank)
      { x with underlineRow := x.underlineRow || (s.display.cursorBlinkOn && k == s.display.cursorColumn) }) := by
  rw [textCells, h]
  show (withCursor _ _ _)[k]? = _
  rw [withCursor_getElem?, padCells_getElem? (n := Config.textColumns) hk, List.getElem?_map, List.getElem?_drop]
  rfl

theorem textCells_overlay_getElem? {k : Nat} {o : Overlay} (h : s.display.overlay = some o) (hk : k < 28) :
    (textCells s)[k]? = some (((o.codes[k]?).map showCode).getD .blank) := by
  rw [textCells, h]
  show (padCells 28 _)[k]? = _
  rw [padCells_getElem? hk, List.getElem?_map]

theorem renderedDisplay_text {k : Nat} (hk : k < 28) :
    (renderedDisplay s).cells[k]? = (textCells { s with display := placeCursor s })[k]? :=
  List.getElem?_append_left (by rwa [length_textCells])

theorem renderedDisplay_status (k : Nat) :
    (renderedDisplay s).cells[28 + k]? = (statusCells { s with display := placeCursor s })[k]? := by
  have hlength := length_textCells { s with display := placeCursor s }
  exact (List.getElem?_append_right (by omega)).trans (by rw [hlength, Nat.add_sub_cancel_left])

/-- R148: the words that blink are the UNKNOWN ones not accepted. -/
theorem blinks_iff {words : List Word} {x : Cell} : blinks words x = true ↔
    ∃ id w, x.word = some id ∧ w ∈ words ∧ w.id = id ∧ w.state = .unknown ∧ w.accepted = false := by
  cases hx : x.word with
  | none => simp [blinks, hx]
  | some id =>
    rw [blinks, hx]
    simp only [List.any_eq_true, mem_unknownWords, beq_iff_eq]
    constructor
    · rintro ⟨w, ⟨hw, hstate, haccepted⟩, hid⟩
      exact ⟨id, w, rfl, hw, hid, hstate, haccepted⟩
    · rintro ⟨i, w, hi, hw, hid, hstate, haccepted⟩
      exact ⟨w, ⟨hw, hstate, haccepted⟩, hid.trans (Option.some.inj hi).symm⟩

theorem underlineLit_eq (x : Cell) :
    underlineLit x = (x.underline && !x.underlineDropped && x.kind != .tab && x.kind != .lineEnd) := by
  unfold underlineLit
  cases x.kind <;> cases x.underline <;> cases x.underlineDropped <;> rfl

/-- R143, R148: a cell whose word blinks is dark in phase OFF. -/
theorem showCell_of_dark {x : Cell} (h : blinks s.spelling.words x = true) (hoff : s.display.wordBlinkOn = false) :
    showCell s x = .blank := by
  rw [showCell, h, hoff]
  rfl

theorem showCell_of_lit {x : Cell} (h : blinks s.spelling.words x = false ∨ s.display.wordBlinkOn = true) :
    showCell s x = { shape := shapeOf x, underlineRow := underlineLit x } := by
  refine if_neg fun hdark => ?_
  rw [Bool.and_eq_true, Bool.not_eq_true'] at hdark
  rcases h with h | h
  · rw [hdark.1] at h; cases h
  · rw [hdark.2] at h; cases h

end

/-- Settles O23: the window, the text columns and the status columns of the display that a render leaves. -/
theorem render_shows_the_window_and_the_status : Obligations.render_shows_the_window_and_the_status := by
  intro s
  refine ⟨render_of_not_rendered s, fun hrendered => ⟨renderedDisplay s, render_of_rendered hrendered, ?_⟩⟩
  intro ws c moved blink column status
  have hmoved : (judgeWindow c ws != ws || c - judgeWindow c ws != s.display.cursorColumn) = true ↔ moved := by
    rw [Bool.or_eq_true, bne_iff_ne, bne_iff_ne]
    rfl
  have hstatus {k : Nat} {x : DisplayCell} (hx : (statusCells { s with display := placeCursor s })[k]? = some x) :
      (renderedDisplay s).cells[28 + k]? = some x := (renderedDisplay_status k).trans hx
  have htext {k : Nat} (hk : k < 28) (hnone : s.display.overlay = none) {x : DisplayCell}
      (hx : ((s.line.cells[(renderedDisplay s).windowStart + k]?).map
        (showCell { s with display := placeCursor s })).getD .blank = x) : column k x.shape x.underlineRow := by
    subst hx
    exact (renderedDisplay_text hk).trans (textCells_getElem? (s := { s with display := placeCursor s }) hnone hk)
  refine ⟨?_, rfl, rfl, placeCursor_column_le s, fun h => if_pos h, fun h => ?_, fun h h' => ?_, fun h => ?_,
    fun h => ?_, rfl, rfl, rfl, rfl, hrendered, fun hnone k hk => ?text, fun o ho k hk => ?overlay, hstatus (k := 0) ?_,
    hstatus (k := 1) ?_, fun h => hstatus (k := 2) ?_, fun h => hstatus (k := 2) ?_, fun h => hstatus (k := 3) ?_,
    fun h => hstatus (k := 3) ?_, fun hf hp => ⟨fun h => hstatus (k := 3) ?_, fun h => hstatus (k := 3) ?_⟩⟩
  case text =>
    refine ⟨fun hpast => ?_, fun x hx => ?_⟩
    · exact htext hk hnone (by rw [List.getElem?_eq_none hpast])
    · intro lit
      have hcell {y : DisplayCell} (hy : showCell { s with display := placeCursor s } x = y) :
          column k y.shape y.underlineRow := htext hk hnone (by rw [hx]; exact hy)
      refine ⟨fun hblink hoff => hcell (showCell_of_dark (blinks_iff.mpr hblink) hoff), fun hlit => ?_⟩
      have hshown : column k (shapeOf x) lit := by
        have hy := hcell (showCell_of_lit (s := { s with display := placeCursor s })
          (hlit.imp (fun h => Bool.eq_false_iff.mpr (mt blinks_iff.mp h)) id))
        rwa [underlineLit_eq] at hy
      refine ⟨fun hblock => ?_, fun hprints => ⟨fun hkind => ?_, fun hkind => ?_, fun hkind => ?_, fun hkind => ?_⟩⟩
      · rwa [shapeOf, hblock] at hshown
      · rw [shapeOf, hprints] at hshown
        rcases hkind with hkind | hkind <;> rwa [hkind] at hshown
      · rw [shapeOf, hprints, hkind] at hshown
        exact hshown
      · rw [shapeOf, hprints, hkind] at hshown
        have hdark : lit = false := by simp [lit, hkind]
        rw [hdark] at hshown
        exact hshown
      · rw [shapeOf, hprints, hkind] at hshown
        have hdark : lit = false := by simp [lit, hkind]
        rw [hdark] at hshown
        exact hshown
  case overlay =>
    refine (renderedDisplay_text hk).trans
      ((textCells_overlay_getElem? (s := { s with display := placeCursor s }) ho hk).trans (congrArg some ?_))
    cases hcode : o.codes[k]? with
    | none => rfl
    | some b =>
      show showCode b = _
      rw [showCode]
      simp only [isSpaceCode_iff]
  · show (textCells _ ++ statusCells _).length = 32
    rw [List.length_append, length_textCells]
    rfl
  · rw [show (renderedDisplay s).windowStart = judgeWindow c ws from rfl, judgeWindow, if_neg (by omega), if_pos h]
  · rw [show (renderedDisplay s).windowStart = judgeWindow c ws from rfl, judgeWindow, if_neg (by omega),
      if_neg (by omega)]
  · have hm := hmoved.mpr h
    refine ⟨?_, ?_⟩
    · show (s.display.cursorBlinkOn || (judgeWindow c ws != ws || c - judgeWindow c ws != s.display.cursorColumn)) = true
      rw [hm, Bool.or_true]
    · exact if_pos hm
  · have hm : (judgeWindow c ws != ws || c - judgeWindow c ws != s.display.cursorColumn) = false :=
      Bool.eq_false_iff.mpr (mt hmoved.mp h)
    refine ⟨?_, ?_⟩
    · show (s.display.cursorBlinkOn || (judgeWindow c ws != ws || c - judgeWindow c ws != s.display.cursorColumn)) = _
      rw [hm, Bool.or_false]
    · exact if_neg (Bool.eq_false_iff.mp hm)
  · cases hp : s.composer.format.pitch <;> simp [statusCells, hp, pitchColumn, statusChar]
  · cases hm : s.composer.format.mode <;> simp [statusCells, hm, modeColumn, statusChar]
  · obtain ⟨w, hw, hstate, haccepted⟩ := h
    have hne : unknownWords s.spelling.words ≠ [] :=
      List.ne_nil_of_mem (mem_unknownWords.mpr ⟨hw, hstate, haccepted⟩)
    exact congrArg some (if_pos hne)
  · have hnil : unknownWords s.spelling.words = [] := unknownWords_eq_nil h
    refine congrArg some ((if_neg (not_not_intro hnil)).trans ?_)
    cases s.composer.format.spelling <;> rfl
  · obtain ⟨r, hr⟩ := h
    exact congrArg some (if_pos (by rw [hr]; rfl))
  · obtain ⟨r, hr⟩ := h
    exact congrArg some ((if_neg (by rw [hr]; exact Bool.false_ne_true)).trans (if_pos (by rw [hr]; rfl)))
  · exact congrArg some ((if_neg (mt isFaulted_iff.mp (not_exists.mpr hf))).trans
      ((if_neg (mt isPaused_iff.mp (not_exists.mpr hp))).trans (if_pos h)))
  · exact congrArg some ((if_neg (mt isFaulted_iff.mp (not_exists.mpr hf))).trans
      ((if_neg (mt isPaused_iff.mp (not_exists.mpr hp))).trans (if_neg (Nat.not_le.mpr h))))

end Sys2Proof.Machine


/-! ## Accepting, adding and removing words (O25) -/

namespace Sys2Proof.Machine

section

variable {s : State}

/-! ### The user-word index and the codes of a body (R132, R138) -/

theorem slotWithHash_eq_some_iff {index : List (Option Nat)} {hash k i : Nat} :
    slotWithHash index hash k = some i ↔
      k ≤ i ∧ index[i]? = some (some hash) ∧ ∀ j, k ≤ j → j < i → index[j]? ≠ some (some hash) := by
  have hslot (j : Nat) : ((index[j]?).join == some hash) = true ↔ index[j]? = some (some hash) := by
    rw [beq_iff_eq, Option.join_eq_some_iff]
  rw [slotWithHash, List.range_eq_range', List.drop_range', List.find?_range'_eq_some, hslot]
  simp only [List.mem_range'_1, Bool.not_eq_true', Nat.mul_one]
  constructor
  · rintro ⟨hi, hmem, hbefore⟩
    exact ⟨by omega, hi, fun j hk hj h => absurd ((hslot j).mpr h) (by rw [hbefore j (by omega) hj]; decide)⟩
  · rintro ⟨hk, hi, hbefore⟩
    have hlt : i < index.length := (List.getElem?_eq_some_iff.mp hi).1
    exact ⟨hi, by omega, fun j hj hlt => Bool.eq_false_iff.mpr fun h => hbefore j (by omega) hlt ((hslot j).mp h)⟩

theorem slotWithHash_eq_none_iff {index : List (Option Nat)} {hash k : Nat} :
    slotWithHash index hash k = none ↔ ∀ j, k ≤ j → index[j]? ≠ some (some hash) := by
  constructor
  · intro h j hk hj
    have hlt : j < index.length := (List.getElem?_eq_some_iff.mp hj).1
    rw [slotWithHash, List.find?_eq_none] at h
    refine h j ?_ (by rw [hj]; exact beq_self_eq_true _)
    rw [List.range_eq_range', List.drop_range', List.mem_range'_1]
    omega
  · intro h
    rw [Option.eq_none_iff_forall_not_mem]
    intro i hi
    obtain ⟨hk, hslot, -⟩ := slotWithHash_eq_some_iff.mp hi
    exact h i hk hslot

theorem slotWithHash_of_split {before after : List (Option Nat)} {hash : Nat} (h : some hash ∉ before) :
    slotWithHash (before ++ some hash :: after) hash 0 = some before.length := by
  refine slotWithHash_eq_some_iff.mpr ⟨Nat.zero_le _, by simp, fun j _ hj hslot => h ?_⟩
  rw [List.getElem?_append_left hj] at hslot
  exact List.mem_of_getElem? hslot

theorem slotWithHash_of_not_mem {index : List (Option Nat)} {hash : Nat} (h : some hash ∉ index) (k : Nat) :
    slotWithHash index hash k = none :=
  slotWithHash_eq_none_iff.mpr fun _ _ hj => h (List.mem_of_getElem? hj)

theorem findIdx?_isNone_of_split {before after : List (Option Nat)} (h : none ∉ before) :
    (before ++ none :: after).findIdx? (fun e => e.isNone) = some before.length := by
  refine List.findIdx?_eq_some_iff_getElem.mpr ⟨by simp, by simp, fun j hj => ?_⟩
  rw [List.getElem_append_left hj, Option.isNone_iff_eq_none]
  exact fun hnone => h (hnone ▸ List.getElem_mem hj)

/-- R138: a body of letters, with an apostrophe between two letters alone. -/
def isWordBody (codes : List Byte) : Prop :=
  ∀ i b, codes[i]? = some b → isLetterCode b = true ∨
    b = 0x27 ∧ 0 < i ∧ (∃ x, codes[i - 1]? = some x ∧ isLetterCode x = true) ∧
      ∃ x, codes[i + 1]? = some x ∧ isLetterCode x = true

theorem isApostrophe_iff {c : Byte} : isApostrophe c = true ↔ c = 0x27 := by
  rw [isApostrophe, beq_iff_eq, eq_iff_toNat_eq]
  rfl

/-- The first code of a word body is a letter. -/
theorem isWordBody.head {c : Byte} {codes : List Byte} (h : isWordBody (c :: codes)) : isLetterCode c = true := by
  obtain hc | ⟨-, hpos, -⟩ := h 0 c rfl
  · exact hc
  · exact absurd hpos (Nat.lt_irrefl 0)

/-- What stands behind a letter that is followed by a letter. -/
theorem isWordBody_cons_cons_letter {c d : Byte} {rest : List Byte} (hd : d ≠ 0x27) :
    isWordBody (c :: d :: rest) ↔ isLetterCode c = true ∧ isWordBody (d :: rest) := by
  constructor
  · refine fun h => ⟨h.head, fun i b hb => ?_⟩
    obtain hl | ⟨rfl, -, hbefore, hafter⟩ := h (i + 1) b hb
    · exact .inl hl
    · cases i with
      | zero => exact absurd (Option.some.inj hb) hd
      | succ i => exact .inr ⟨rfl, Nat.succ_pos i, hbefore, hafter⟩
  · rintro ⟨hc, h⟩ i b hb
    cases i with
    | zero => exact .inl (Option.some.inj hb ▸ hc)
    | succ i =>
      obtain hl | ⟨rfl, hpos, hbefore, hafter⟩ := h i b hb
      · exact .inl hl
      · obtain ⟨k, rfl⟩ := Nat.exists_eq_succ_of_ne_zero (Nat.pos_iff_ne_zero.mp hpos)
        exact .inr ⟨rfl, Nat.succ_pos _, hbefore, hafter⟩

/-- What stands behind a letter that is followed by an apostrophe. -/
theorem isWordBody_cons_apostrophe {c e : Byte} {rest : List Byte} :
    isWordBody (c :: 0x27 :: e :: rest) ↔
      isLetterCode c = true ∧ isLetterCode e = true ∧ isWordBody (e :: rest) := by
  have hmark : isLetterCode 0x27 = false := by decide
  constructor
  · intro h
    have he : isLetterCode e = true := by
      obtain hl | ⟨-, -, -, x, hx, hl⟩ := h 1 0x27 rfl
      · rw [hmark] at hl; exact absurd hl (by decide)
      · exact Option.some.inj hx ▸ hl
    refine ⟨h.head, he, fun i b hb => ?_⟩
    cases i with
    | zero => exact .inl (Option.some.inj hb ▸ he)
    | succ i =>
      obtain hl | ⟨rfl, -, hbefore, hafter⟩ := h (i + 3) b hb
      · exact .inl hl
      · exact .inr ⟨rfl, Nat.succ_pos i, hbefore, hafter⟩
  · rintro ⟨hc, he, h⟩ i b hb
    match i, hb with
    | 0, hb => exact .inl (Option.some.inj hb ▸ hc)
    | 1, hb => exact .inr ⟨(Option.some.inj hb).symm, Nat.one_pos, ⟨c, rfl, hc⟩, e, rfl, he⟩
    | i + 2, hb =>
      obtain hl | ⟨rfl, hpos, hbefore, hafter⟩ := h i b hb
      · exact .inl hl
      · obtain ⟨k, rfl⟩ := Nat.exists_eq_succ_of_ne_zero (Nat.pos_iff_ne_zero.mp hpos)
        exact .inr ⟨rfl, Nat.succ_pos _, hbefore, hafter⟩

theorem lettersAllowed_iff (codes : List Byte) : lettersAllowed codes = true ↔ isWordBody codes := by
  fun_induction lettersAllowed codes with
  | case1 => exact ⟨fun _ i b hb => absurd hb (by simp), fun _ => rfl⟩
  | case2 c =>
    refine ⟨fun h i b hb => ?_, fun h => h.head⟩
    cases i with
    | zero => exact .inl (Option.some.inj hb ▸ h)
    | succ i => exact absurd hb (by simp)
  | case3 c d rest ih ih' =>
    by_cases hd : isApostrophe d = true
    · rw [if_pos hd, isApostrophe_iff.mp hd]
      cases rest with
      | nil =>
        refine iff_of_false (by simp) fun h => ?_
        obtain hl | ⟨-, -, -, x, hx, -⟩ := h 1 0x27 rfl
        · exact absurd hl (by decide)
        · exact absurd hx (by simp)
      | cons e rest => rw [isWordBody_cons_apostrophe, Bool.and_eq_true, Bool.and_eq_true, ih]
    · rw [if_neg hd, isWordBody_cons_cons_letter (mt isApostrophe_iff.mpr hd), Bool.and_eq_true, ih']

/-! ### ADD-WORD and REMOVE-WORD (R138, R139) -/

/-- The unit with a user-word operation under way. -/
def withUserOp (kind : UserWordKind) (letters : List Nat) (p : UserWordProgress) (s : State) : State :=
  setSpelling { s.spelling with
    userOp := some { kind := kind, letters := letters, hash := wordHash letters, progress := p } } s

theorem refuseUserWord_of_busy {codes : List Byte} (h : s.spelling.userOp ≠ none) :
    refuseUserWord codes s = some .busy :=
  if_pos (Option.isSome_iff_ne_none.mpr h)

theorem refuseUserWord_of_absent {codes : List Byte} (h : s.spelling.userOp = none)
    (habsent : s.memory.state = .absent) : refuseUserWord codes s = some .noMemory := by
  rw [refuseUserWord, h, if_neg (by simp), if_pos habsent]

theorem refuseUserWord_of_starting {codes : List Byte} (h : s.spelling.userOp = none)
    (habsent : s.memory.state ≠ .absent) (hunit : s.spelling.unit = .starting) :
    refuseUserWord codes s = some .notReady := by
  rw [refuseUserWord, h, if_neg (by simp), if_neg habsent, if_pos hunit]

/-- The checks of the codes, once the unit and the memory take an operation. -/
theorem refuseUserWord_of_free {codes : List Byte} (h : s.spelling.userOp = none)
    (habsent : s.memory.state ≠ .absent) (hunit : s.spelling.unit ≠ .starting) :
    refuseUserWord codes s =
      if lettersAllowed codes = false then some .badValue
      else if codes.length < 2 ∨ 15 < codes.length then some .tooLong
      else if 3 ≤ s.memory.protect then some .isProtected
      else none := by
  rw [refuseUserWord, h, if_neg (by simp), if_neg habsent, if_neg hunit]

/-- What a request answers whose operation is refused before the index is looked at. -/
theorem addWord_of_refused {codes : List Byte} {x : Status} (h : refuseUserWord codes s = some x) :
    addWord codes s = (s, x) := by
  rw [addWord, h]

theorem removeWord_of_refused {codes : List Byte} {x : Status} (h : refuseUserWord codes s = some x) :
    removeWord codes s = (s, x) := by
  rw [removeWord, h]

theorem addWord_of_fair {codes : List Byte} (h : refuseUserWord codes s = none) :
    addWord codes s =
      if s.spelling.userIndex.contains (some (wordHash (codes.map letterValue))) ∨
          s.spelling.userIndex.contains none then
        (beginUserOp .add (codes.map letterValue) s, .accepted)
      else (s, .full) := by
  rw [addWord, h]

theorem removeWord_of_fair {codes : List Byte} (h : refuseUserWord codes s = none) :
    removeWord codes s =
      if s.spelling.userIndex.contains (some (wordHash (codes.map letterValue))) then
        (beginUserOp .remove (codes.map letterValue) s, .accepted)
      else (s, .notFound) := by
  rw [removeWord, h]

/-- An operation begins with the comparison of the first slot whose entry holds the hash. -/
theorem beginUserOp_of_slot {kind : UserWordKind} {letters : List Nat} {i : Nat}
    (h : slotWithHash s.spelling.userIndex (wordHash letters) 0 = some i) :
    beginUserOp kind letters s =
      askMemory .userWord (.read (userSlotAddress i)) (withUserOp kind letters (.compare i []) s) := by
  simp only [beginUserOp, compareUserWords, setSpelling_spelling, h]
  rfl

/-- Where no entry holds the hash, ADD-WORD begins with the first write of the first free slot. -/
theorem beginUserOp_of_free {letters : List Nat} {i : Nat}
    (h : slotWithHash s.spelling.userIndex (wordHash letters) 0 = none)
    (hfree : s.spelling.userIndex.findIdx? (fun e => e.isNone) = some i) :
    beginUserOp .add letters s =
      askMemory .userWord (addWordAccess i 0 letters) (withUserOp .add letters (.write i 0) s) := by
  simp only [beginUserOp, compareUserWords, setSpelling_spelling, h, hfree]
  rfl

/-- The answer to ADD-WORD or REMOVE-WORD, with the operation that it begins. -/
def userWordAnswer : UserWordKind → List Byte → State → State × Status
  | .add => addWord
  | .remove => removeWord

theorem exec_userWord (h : hears s) (kind : UserWordKind) (tag : Byte) (codes : List Byte) :
    exec (match kind with | .add => .addWord tag codes | .remove => .removeWord tag codes) s =
      .next (reply (match kind with | .add => 0x41 | .remove => 0x42) tag
        (grant (userWordAnswer kind codes (hunt s)).1, (userWordAnswer kind codes (hunt s)).2.alone)) := by
  cases kind with
  | add => exact congrArg Host.Outcome.next (acceptFrame_of_hears h 0x41 tag handleAddWord codes)
  | remove => exact congrArg Host.Outcome.next (acceptFrame_of_hears h 0x42 tag handleRemoveWord codes)

theorem userWordAnswer_of_refused {kind : UserWordKind} {codes : List Byte} {x : Status}
    (h : refuseUserWord codes s = some x) : userWordAnswer kind codes s = (s, x) := by
  cases kind with
  | add => exact addWord_of_refused h
  | remove => exact removeWord_of_refused h

/-- Either operation begins where an index entry holds the hash. -/
theorem userWordAnswer_of_slot {kind : UserWordKind} {codes : List Byte} {before after : List (Option Nat)}
    (h : refuseUserWord codes s = none)
    (hindex : s.spelling.userIndex = before ++ some (wordHash (codes.map letterValue)) :: after)
    (hbefore : some (wordHash (codes.map letterValue)) ∉ before) :
    userWordAnswer kind codes s =
      (askMemory .userWord (.read (userSlotAddress before.length))
        (withUserOp kind (codes.map letterValue) (.compare before.length []) s), .accepted) := by
  have hslot : slotWithHash s.spelling.userIndex (wordHash (codes.map letterValue)) 0 = some before.length := by
    rw [hindex, slotWithHash_of_split hbefore]
  have hheld : s.spelling.userIndex.contains (some (wordHash (codes.map letterValue))) = true := by
    rw [hindex]; simp
  cases kind with
  | add => rw [userWordAnswer, addWord_of_fair h, if_pos (.inl hheld), beginUserOp_of_slot hslot]
  | remove => rw [userWordAnswer, removeWord_of_fair h, if_pos hheld, beginUserOp_of_slot hslot]

theorem addWord_of_free {codes : List Byte} {before after : List (Option Nat)}
    (h : refuseUserWord codes s = none) (hhash : some (wordHash (codes.map letterValue)) ∉ s.spelling.userIndex)
    (hindex : s.spelling.userIndex = before ++ none :: after) (hbefore : none ∉ before) :
    addWord codes s =
      (askMemory .userWord (addWordAccess before.length 0 (codes.map letterValue))
        (withUserOp .add (codes.map letterValue) (.write before.length 0) s), .accepted) := by
  have hfree : s.spelling.userIndex.findIdx? (fun e => e.isNone) = some before.length := by
    rw [hindex, findIdx?_isNone_of_split hbefore]
  rw [addWord_of_fair h, if_pos (.inr (by rw [hindex]; simp)),
    beginUserOp_of_free (slotWithHash_of_not_mem hhash 0) hfree]

theorem addWord_of_full {codes : List Byte} (h : refuseUserWord codes s = none)
    (hhash : some (wordHash (codes.map letterValue)) ∉ s.spelling.userIndex) (hfull : none ∉ s.spelling.userIndex) :
    addWord codes s = (s, .full) := by
  rw [addWord_of_fair h, if_neg (by simp [hhash, hfull])]

theorem removeWord_of_not_mem {codes : List Byte} (h : refuseUserWord codes s = none)
    (hhash : some (wordHash (codes.map letterValue)) ∉ s.spelling.userIndex) :
    removeWord codes s = (s, .notFound) := by
  rw [removeWord_of_fair h, if_neg (by simp [hhash])]

/-! ### ACCEPT-WORD (R135) -/

theorem exec_acceptWord (h : hears s) (tag id scope : Byte) :
    exec (.acceptWord tag [id, scope]) s = .next (reply 0x40 tag (handleAcceptWord [id, scope] (hunt s))) :=
  congrArg Host.Outcome.next (acceptFrame_of_hears h 0x40 tag (fixedBody 2 handleAcceptWord) [id, scope])

theorem handleAcceptWord_of_none {id scope : Byte} (h : findWord s.spelling.words id.toNat = none) :
    handleAcceptWord [id, scope] s = (s, Status.notFound.alone) := by
  simp only [handleAcceptWord]
  rw [show at8 [id, scope] 0 = id.toNat from rfl, h]

/-- The checks of a word that is live. -/
theorem handleAcceptWord_of_some {id scope : Byte} {w : Word} (h : findWord s.spelling.words id.toNat = some w) :
    handleAcceptWord [id, scope] s =
      if w.state = .opened then (s, Status.notReady.alone)
      else if 2 < scope.toNat then (s, Status.badValue.alone)
      else if scope.toNat = 1 ∧ s.spelling.unit = .starting then (s, Status.notReady.alone)
      else acceptWord id.toNat scope.toNat s := by
  have hid : w.id = id.toNat := by simpa using List.find?_some h
  simp only [handleAcceptWord]
  rw [show at8 [id, scope] 0 = id.toNat from rfl, h]
  simp only [hid]
  rfl

/-- R135, R136: SESSION leaves the ignore list where a user word holds the hash, or the word is long. -/
theorem enterSession_of_kept {letters : List Nat}
    (h : some (wordHash letters) ∈ s.spelling.userIndex ∨ 24 < letters.length) : enterSession letters s = s :=
  if_pos (by simpa using h)

theorem enterSession_of_entered {letters : List Nat} (h : some (wordHash letters) ∉ s.spelling.userIndex)
    (hlong : letters.length ≤ 24) :
    enterSession letters s = setSpelling { s.spelling with
      ignoreList := enterIgnored { letters := letters, hash := wordHash letters } s.spelling.ignoreList } s :=
  if_neg (by simp [h, hlong])

theorem markAccepted_spelling (id : Nat) :
    (markAccepted id s).spelling = { s.spelling with
      words := s.spelling.words.map fun w => if w.id = id then { w with accepted := true } else w } := by
  obtain ⟨l, hl⟩ := releaseAdvance_parts (modifyWord id (fun w => { w with accepted := true }) s)
  rw [markAccepted, hl]
  rfl

end

/-- Settles O25: the checks in their order, each request's case by its own lemma. -/
theorem accept_add_and_remove_word_requests : Obligations.accept_add_and_remove_word_requests := by
  refine ⟨?accept, ?add⟩
  case accept =>
    intro tag id scope s t hheard h word letters e answers ht
    have hexec {u : State} {x : Status} (hu : handleAcceptWord [id, scope] h = (u, x.alone)) : answers u x :=
      (exec_acceptWord hheard tag id scope).trans (by rw [show handleAcceptWord [id, scope] (hunt s) = _ from hu]; rfl)
    have ht' : t = markAccepted id.toNat h := ht
    have hspelling : t.spelling = _ := ht' ▸ markAccepted_spelling (s := h) id.toNat
    refine ⟨fun hnone => hexec (handleAcceptWord_of_none hnone), fun w hw hopen => hexec ?_, fun w hw hopen => ?_⟩
    · rw [handleAcceptWord_of_some (s := h) hw, if_pos hopen]
    have hcase := handleAcceptWord_of_some (s := h) (scope := scope) hw
    rw [if_neg hopen] at hcase
    have hone : scope = 1 → scope.toNat = 1 := fun h => h ▸ rfl
    have htaken (hscope : scope.toNat ≤ 2) (hstart : scope.toNat = 1 → s.spelling.unit ≠ .starting) :
        handleAcceptWord [id, scope] h = acceptWord id.toNat scope.toNat h := by
      rw [hcase, if_neg (by omega), if_neg fun hs => hstart hs.1 hs.2]
    refine ⟨fun hscope => hexec ?_, fun hscope hunit => hexec ?_, fun hscope => hexec ?_,
      fun hscope hunit hkept => hexec ?_, fun hscope hunit hnew hlong => hexec ?_, fun hscope u x hadd => hexec ?_⟩
    · rw [hcase, if_pos (by omega)]
    · rw [hcase, if_neg (by rw [hone hscope]; omega), if_pos ⟨hone hscope, hunit⟩]
    · subst hscope
      rw [htaken (by decide) (fun hone => absurd hone (by decide)), ht']
      rfl
    · subst hscope
      rw [htaken (by decide) fun _ => hunit]
      change (textEnd (enterSession letters (markAccepted id.toNat h)), Status.ok.alone) = _
      rw [← ht', enterSession_of_kept (by rw [hspelling]; exact hkept)]
    · subst hscope
      rw [htaken (by decide) fun _ => hunit]
      change (textEnd (enterSession letters (markAccepted id.toNat h)), Status.ok.alone) = _
      rw [← ht', enterSession_of_entered (by rw [hspelling]; exact hnew) hlong]
      rw [hspelling]
      rfl
    · subst hscope
      rw [htaken (by decide) (fun hone => absurd hone (by decide))]
      change (textEnd (addWord _ (markAccepted id.toNat h)).1, (addWord _ (markAccepted id.toNat h)).2.alone) = _
      rw [← ht', show addWord (wordCodes h id.toNat) t = (u, x) from hadd]
  case add =>
    intro tag codes s kind hheard h c k answers word letters hash index begun
    have hexec {u : State} {x : Status} (hu : userWordAnswer kind codes h = (u, x)) : answers u x := by
      have he := exec_userWord hheard kind tag codes
      rw [show userWordAnswer kind codes (hunt s) = _ from hu] at he
      cases kind <;> exact he
    have hrefused {x : Status} (hx : refuseUserWord codes h = some x) : answers h x :=
      hexec (userWordAnswer_of_refused hx)
    refine ⟨fun hop => hrefused (refuseUserWord_of_busy hop),
      fun hop habsent => hrefused (refuseUserWord_of_absent hop habsent),
      fun hop habsent hunit => hrefused (refuseUserWord_of_starting hop habsent hunit), fun hop habsent hunit => ?_⟩
    have hcheck := refuseUserWord_of_free (s := h) (codes := codes) hop habsent hunit
    have hletters : word → lettersAllowed codes ≠ false := fun hw => ne_false_of_eq_true ((lettersAllowed_iff codes).mpr hw)
    refine ⟨fun hw => hrefused ?_, fun hw hlen => hrefused ?_, fun hw hmin hmax hprotect => hrefused ?_,
      fun hw hmin hmax hprotect => ?_⟩
    · rw [hcheck, if_pos (Bool.eq_false_iff.mpr (mt (lettersAllowed_iff codes).mp hw))]
    · rw [hcheck, if_neg (hletters hw), if_pos hlen]
    · rw [hcheck, if_neg (hletters hw), if_neg (by omega), if_pos (show 3 ≤ h.memory.protect from hprotect)]
    have hfair : refuseUserWord codes h = none := by
      rw [hcheck, if_neg (hletters hw), if_neg (by omega),
        if_neg (show ¬3 ≤ h.memory.protect from Nat.not_le.mpr hprotect)]
    refine ⟨fun hnew => ⟨fun hkind => hexec ?_, fun hkind hfull => hexec ?_,
      fun before after hkind hindex hbefore => ?_⟩, fun before after hindex hbefore => hexec ?_⟩
    · rw [hkind]
      exact removeWord_of_not_mem hfair hnew
    · rw [hkind]
      exact addWord_of_full hfair hnew hfull
    · subst hkind
      exact hexec (addWord_of_free hfair hnew hindex hbefore)
    · exact userWordAnswer_of_slot hfair hindex hbefore

end Sys2Proof.Machine


/-! ## Words begin, join, complete and are classified (O26) -/

namespace Sys2Proof.Machine

section

variable {s : State} {before after : List Cell} {c : Cell}

/-! ### A cell of the list and its neighbours -/

/-- With the ids distinct, no cell before a cell carries its id. -/
theorem id_ne_of_nodup (h : ((before ++ c :: after).map (·.id)).Nodup) : ∀ d ∈ before, d.id ≠ c.id := by
  rw [List.map_append, List.nodup_append] at h
  exact fun d hd => h.2.2 d.id (List.mem_map_of_mem hd) c.id (by simp)

theorem findCell_split (h : ∀ d ∈ before, d.id ≠ c.id) : findCell (before ++ c :: after) c.id = some c := by
  rw [findCell, List.find?_eq_some_iff_append]
  exact ⟨by simp, before, after, rfl, by simpa using h⟩

theorem cellBefore_split (h : ∀ d ∈ before, d.id ≠ c.id) :
    cellBefore (before ++ c :: after) c.id = before.getLast? := by
  rw [cellBefore, List.takeWhile_append_of_pos (by simpa using h), List.takeWhile_cons_of_neg (by simp),
    List.append_nil]

theorem cellAfter_split (h : ∀ d ∈ before, d.id ≠ c.id) :
    cellAfter (before ++ c :: after) c.id = after.head? := by
  rw [cellAfter, List.dropWhile_append_of_pos (by simpa using h), List.dropWhile_cons_of_neg (by simp)]
  rfl

/-! ### The open word (R124, R125) -/

theorem joinOpenWord_of_word {id : Nat} (h : s.spelling.openWord = .word id) {ids : List Nat} {i : Nat}
    (hlast : ids.getLast? = some i) : joinOpenWord ids s =
      { s with
        line := { s.line with cells := s.line.cells.map fun d =>
          if d.id ∈ ids then { d with word := some id } else d }
        spelling := { s.spelling with
          pendingApostrophe := none
          words := s.spelling.words.map fun v =>
            if v.id = id then { v with count := v.count + ids.length, last := i } else v } } := by
  have hjoin : (fun d : Cell => if ids.contains d.id then { d with word := some id } else d) =
      fun d => if d.id ∈ ids then { d with word := some id } else d :=
    funext fun d => if_congr List.contains_iff_mem rfl rfl
  conv_lhs => simp only [joinOpenWord, h, hlast, Option.getD_some]
  rw [← hjoin]
  rfl

theorem joinOpenWord_of_run {run ids : List Nat} (h : s.spelling.openWord = .unlisted run) :
    joinOpenWord ids s =
      { s with spelling := { s.spelling with openWord := .unlisted (run ++ ids), pendingApostrophe := none } } := by
  rw [joinOpenWord, h]

theorem beginWord_of_full {cell : Nat} (h : 100 ≤ s.spelling.words.length) :
    beginWord cell s = raiseSpell 1 [byte cell]
      { s with spelling := { s.spelling with openWord := .unlisted [cell], pendingApostrophe := none } } :=
  if_pos h

theorem beginWord_of_room {cell : Nat} (h : s.spelling.words.length < 100) :
    beginWord cell s =
      { s with
        line := { s.line with cells := s.line.cells.map fun d =>
          if d.id = cell then { d with word := some (freeId s.spelling.nextWordId (s.spelling.words.map (·.id))) }
          else d }
        spelling := { s.spelling with
          words := s.spelling.words ++
            [{ id := freeId s.spelling.nextWordId (s.spelling.words.map (·.id)), first := cell, last := cell,
               count := 1, hash := 0, state := .opened, skip := none, generation := 0, holdMark := false,
               accepted := false }]
          nextWordId := (freeId s.spelling.nextWordId (s.spelling.words.map (·.id)) + 1) % 256
          openWord := .word (freeId s.spelling.nextWordId (s.spelling.words.map (·.id)))
          pendingApostrophe := none } } :=
  if_neg (Nat.not_le.mpr h)

/-- The new cell stands directly behind the open word or run. -/
def standsBehind (s : State) (previous : Option Nat) : Prop :=
  openLast s ≠ none ∧ s.spelling.pendingApostrophe = none ∧ previous = openLast s

theorem afterLast_iff {previous : Option Nat} :
    ((openLast s).isSome && previous == openLast s && s.spelling.pendingApostrophe.isNone) = true ↔
      standsBehind s previous := by
  simp only [Bool.and_eq_true, beq_iff_eq, Option.isNone_iff_eq_none, standsBehind, ne_eq, ← Option.isSome_iff_ne_none]
  tauto

section
variable (hcells : s.line.cells = before ++ c :: after) (hbefore : ∀ d ∈ before, d.id ≠ c.id)
include hcells hbefore

/-- The cases of a new cell. -/
theorem spellCell_eq : spellCell c.id s =
    if c.isInk && isLetterCode (c.glyph.getD 0) then
      if (openLast s).isSome && (before.getLast?.map (·.id)) == openLast s && s.spelling.pendingApostrophe.isNone then
        joinOpenWord [c.id] s
      else if s.spelling.pendingApostrophe.isSome &&
          (before.getLast?.map (·.id)) == s.spelling.pendingApostrophe then
        joinOpenWord (s.spelling.pendingApostrophe.toList ++ [c.id]) s
      else beginWord c.id (completeOpenWord s)
    else if c.isInk && isApostrophe (c.glyph.getD 0) &&
        ((openLast s).isSome && (before.getLast?.map (·.id)) == openLast s &&
          s.spelling.pendingApostrophe.isNone) then
      { s with spelling := { s.spelling with pendingApostrophe := some c.id } }
    else completeOpenWord s := by
  rw [spellCell, hcells, findCell_split hbefore]
  simp only [cellBefore_split hbefore]

variable (hletter : (c.isInk && isLetterCode (c.glyph.getD 0)) = true)
include hletter

theorem spellCell_of_direct (h : standsBehind s (before.getLast?.map (·.id))) :
    spellCell c.id s = joinOpenWord [c.id] s := by
  rw [spellCell_eq hcells hbefore, if_pos hletter, if_pos (afterLast_iff.mpr h)]

theorem spellCell_of_beyond {a : Nat} (h : s.spelling.pendingApostrophe = some a)
    (hprevious : before.getLast?.map (·.id) = some a) : spellCell c.id s = joinOpenWord [a, c.id] s := by
  rw [spellCell_eq hcells hbefore, if_pos hletter, if_neg (by simp [h]), if_pos (by simp [h, hprevious]), h]
  rfl

theorem spellCell_of_apart (h : ¬standsBehind s (before.getLast?.map (·.id)))
    (hbeyond : ∀ a, ¬(s.spelling.pendingApostrophe = some a ∧ before.getLast?.map (·.id) = some a)) :
    spellCell c.id s = beginWord c.id (completeOpenWord s) := by
  rw [spellCell_eq hcells hbefore, if_pos hletter, if_neg (mt afterLast_iff.mp h), if_neg]
  rw [Bool.and_eq_true, Option.isSome_iff_exists, beq_iff_eq]
  rintro ⟨⟨a, ha⟩, hprevious⟩
  exact hbeyond a ⟨ha, hprevious.trans ha⟩

omit hletter

theorem spellCell_of_apostrophe (hnot : ¬(c.isInk && isLetterCode (c.glyph.getD 0)) = true)
    (hink : c.isInk = true) (hcode : isApostrophe (c.glyph.getD 0) = true)
    (h : standsBehind s (before.getLast?.map (·.id))) :
    spellCell c.id s = { s with spelling := { s.spelling with pendingApostrophe := some c.id } } := by
  rw [spellCell_eq hcells hbefore, if_neg hnot, if_pos]
  rw [afterLast_iff.mpr h, hink, hcode]
  rfl

theorem spellCell_of_other (hnot : ¬(c.isInk && isLetterCode (c.glyph.getD 0)) = true)
    (h : ¬((c.isInk = true ∧ isApostrophe (c.glyph.getD 0) = true) ∧ standsBehind s (before.getLast?.map (·.id)))) :
    spellCell c.id s = completeOpenWord s := by
  rw [spellCell_eq hcells hbefore, if_neg hnot, if_neg]
  rwa [Bool.and_eq_true, Bool.and_eq_true, afterLast_iff]

end

theorem completeOpenWord_of_word {id : Nat} (h : s.spelling.openWord = .word id) :
    completeOpenWord s = classify id (closeOpenWord s) := by
  rw [completeOpenWord, h]

theorem completeOpenWord_of_other (h : s.spelling.openWord = .none ∨ ∃ run, s.spelling.openWord = .unlisted run) :
    completeOpenWord s = closeOpenWord s := by
  obtain h | ⟨run, h⟩ := h <;> rw [completeOpenWord, h]

/-- The open word, or the unlisted run, has one of the cells. -/
theorem openWordBefore_iff {cells : List Cell} : openWordBefore cells s = true ↔
    (∃ id, s.spelling.openWord = .word id ∧ ∃ d ∈ cells, d.word = some id) ∨
      ∃ run, s.spelling.openWord = .unlisted run ∧ ∃ d ∈ cells, d.id ∈ run := by
  unfold openWordBefore
  cases s.spelling.openWord <;> simp

theorem paperCells_split {l r : List Cell} {e : Cell} (he : e.kind = .lineEnd) (hl : ∀ d ∈ l, d.kind ≠ .lineEnd) :
    paperCells (l ++ e :: r) = l := by
  rw [paperCells, lineEndIndex_split he hl]
  simp

/-! ### Classification (R128, R129) -/

theorem Cell.isDigit_iff : c.isDigit = true ↔
    c.kind = .glyph ∧ 0x30 ≤ (c.glyph.getD 0).toNat ∧ (c.glyph.getD 0).toNat ≤ 0x39 := by
  simp [Cell.isDigit, isDigitCode]

theorem Cell.isInk_iff : c.isInk = true ↔ c.kind = .glyph ∨ c.kind = .composite := by
  simp [Cell.isInk]

theorem isLetterCode_iff {c : Byte} : isLetterCode c = true ↔
    0x41 ≤ c.toNat ∧ c.toNat ≤ 0x5A ∨ 0x61 ≤ c.toNat ∧ c.toNat ≤ 0x7A ∨ 0xC0 ≤ c.toNat := by
  simp [isLetterCode, or_assoc]

section
variable {cells : List Cell} (hn : (cells.map (·.id)).Nodup)
include hn

/-- A cell that satisfies `p` stands directly before the cell of an id. -/
theorem any_cellBefore_iff {id : Nat} (h : ∃ f ∈ cells, f.id = id) (p : Cell → Bool) :
    (cellBefore cells id).any p = true ↔ ∃ l d f r, cells = l ++ d :: f :: r ∧ f.id = id ∧ p d = true := by
  constructor
  · intro hany
    obtain ⟨f, hf, rfl⟩ := h
    obtain ⟨l, r, rfl⟩ := List.append_of_mem hf
    obtain ⟨d, hd, hp⟩ := (Option.any_eq_true ..).mp hany
    rw [cellBefore_split (id_ne_of_nodup hn), List.getLast?_eq_some_iff] at hd
    obtain ⟨l', rfl⟩ := hd
    exact ⟨l', d, f, r, by simp, rfl, hp⟩
  · rintro ⟨l, d, f, r, rfl, rfl, hp⟩
    rw [List.append_cons] at hn ⊢
    rw [cellBefore_split (id_ne_of_nodup hn)]
    simpa using hp

/-- A cell that satisfies `p` stands directly behind the cell of an id. -/
theorem any_cellAfter_iff {id : Nat} (h : ∃ f ∈ cells, f.id = id) (p : Cell → Bool) :
    (cellAfter cells id).any p = true ↔ ∃ l f d r, cells = l ++ f :: d :: r ∧ f.id = id ∧ p d = true := by
  constructor
  · intro hany
    obtain ⟨f, hf, rfl⟩ := h
    obtain ⟨l, r, rfl⟩ := List.append_of_mem hf
    obtain ⟨d, hd, hp⟩ := (Option.any_eq_true ..).mp hany
    rw [cellAfter_split (id_ne_of_nodup hn), List.head?_eq_some_iff] at hd
    obtain ⟨r', rfl⟩ := hd
    exact ⟨l, f, d, r', rfl, rfl, hp⟩
  · rintro ⟨l, f, d, r, rfl, rfl, hp⟩
    rw [cellAfter_split (id_ne_of_nodup hn)]
    simpa using hp

end

theorem holdAtCompletion_iff {id : Nat} : holdAtCompletion s id = true ↔
    s.composer.format.spelling = .hold ∧ s.composer.format.mode ≠ .direct ∧
      ∀ c ∈ s.line.cells, c.word = some id → c.state = .held := by
  simp [holdAtCompletion, wordCells, Cell.isHeld, and_assoc, ← imp_iff_not_or]

/-- The word that a completion judges, with what R128 gives it. -/
def judgedWord (id hash : Nat) (v : Verdict) (hold : Bool) (s : State) : State :=
  modifyWord id (fun w => { w with hash := hash, state := v.state, skip := v.skip, holdMark := w.holdMark || hold }) s

/-- The letters of a word, with their hash. -/
def wordEntry (s : State) (id : Nat) : IgnoreEntry :=
  { letters := wordLetters s.line.cells id, hash := wordHash (wordLetters s.line.cells id) }

/-- What a verdict does beside the word's record. -/
def verdictFollows (id : Nat) (e : IgnoreEntry) : Verdict → State → State
  | .ignored, t => { t with spelling := { t.spelling with ignoreList := enterIgnored e t.spelling.ignoreList } }
  | .queueFull, t => raiseSpell 2 [byte id] t
  | .queued, t => { t with spelling := { t.spelling with checkQueue := t.spelling.checkQueue ++ [id] } }
  | .offSkipped, t | .single, t | .long, t | .digit, t | .unavailable, t => t

section
variable {id : Nat} {w : Word} (hw : findWord s.spelling.words id = some w)
include hw

theorem classify_of_off (hoff : s.composer.format.spelling = .off) :
    classify id s = modifyWord id (fun w => { w with state := .skipped, skip := none }) s := by
  have hv : classification s w (wordEntry s id) = .offSkipped := if_pos hoff
  simp only [classify, hw]
  exact if_pos hv

theorem classify_of_verdict {v : Verdict} (hv : classification s w (wordEntry s id) = v) (hne : v ≠ .offSkipped) :
    classify id s = verdictFollows id (wordEntry s id) v
      (judgedWord id (wordEntry s id).hash v (holdAtCompletion s id) s) := by
  have hv' : classification s w
      { letters := wordLetters s.line.cells id, hash := wordHash (wordLetters s.line.cells id) } = v := hv
  simp only [classify, hw, hv']
  rw [if_neg hne]
  cases v <;> rfl

end

/-! ### The letter values (R129) -/

theorem letterValue_of_small {c : Byte} (hmin : 0x61 ≤ c.toNat) (hmax : c.toNat ≤ 0x7A) :
    letterValue c = c.toNat - 0x61 + 1 := by
  simp only [letterValue]
  rw [if_pos ⟨hmin, hmax⟩]
  omega

theorem letterValue_of_accented {c : Byte} (h : 0xE0 ≤ c.toNat) : letterValue c = c.toNat - 0xE0 + 28 := by
  simp only [letterValue]
  rw [if_neg (by omega), if_neg (by omega), if_neg (by omega), if_pos h]

theorem toNat_add_case {c : Byte} (h : c.toNat ≤ 0xDF) : (c + 0x20).toNat = c.toNat + 0x20 := by
  rw [BitVec.toNat_add, show (0x20 : Byte).toNat = 0x20 from rfl]
  omega

theorem letterValue_of_capital {c : Byte} (hmin : 0x41 ≤ c.toNat) (hmax : c.toNat ≤ 0x5A) :
    letterValue c = letterValue (c + 0x20) := by
  have hadd := toNat_add_case (c := c) (by omega)
  rw [letterValue_of_small (c := c + 0x20) (by omega) (by omega), hadd]
  simp only [letterValue]
  rw [if_neg (by omega), if_pos ⟨hmin, hmax⟩]
  omega

theorem letterValue_of_accented_capital {c : Byte} (hmin : 0xC0 ≤ c.toNat) (hmax : c.toNat ≤ 0xDF) :
    letterValue c = letterValue (c + 0x20) := by
  have hadd := toNat_add_case hmax
  rw [letterValue_of_accented (c := c + 0x20) (by omega), hadd]
  simp only [letterValue]
  rw [if_neg (by omega), if_neg (by omega), if_neg (by omega), if_neg (by omega), if_pos hmin]

theorem wordHash_append (l : List Nat) (v : Nat) : wordHash (l ++ [v]) = (wordHash l * 37 + v) % 65536 :=
  List.foldl_concat ..

end

/-- Settles O26: the cases of a new cell, of a completion and of a line end, then R128's tests one after another. -/
theorem words_begin_join_complete_and_classify : Obligations.words_begin_join_complete_and_classify := by
  refine ⟨?cell, ?complete, ?classify, ?value, rfl, wordHash_append, fun _ _ => rfl⟩
  case value =>
    exact fun c => ⟨letterValue_of_small, letterValue_of_capital, fun h => h ▸ rfl, letterValue_of_accented,
      letterValue_of_accented_capital⟩
  case cell =>
    intro s before after c hcells hn x code ink letter apostrophe last previous direct beyond u joins
    have hbefore := id_ne_of_nodup (hcells ▸ hn)
    have hlast : last = openLast s := by
      cases h : s.spelling.openWord <;> simp [last, openLast, x, h, findWord]
    have hdirect : direct ↔ standsBehind s previous := by
      simp only [direct, hlast, standsBehind, x]
    have hletter : letter ↔ (c.isInk && isLetterCode (c.glyph.getD 0)) = true := by
      rw [Bool.and_eq_true, Cell.isInk_iff, isLetterCode_iff]
    have hapostrophe : apostrophe ↔ c.isInk = true ∧ isApostrophe (c.glyph.getD 0) = true := by
      rw [Cell.isInk_iff, isApostrophe_iff, eq_iff_toNat_eq]
      rfl
    have hjoins {ids : List Nat} (h : u = joinOpenWord ids s) (hend : ids.getLast? = some c.id) : joins ids :=
      ⟨fun id w hopen _ => h.trans (joinOpenWord_of_word hopen hend), fun run hopen => h.trans (joinOpenWord_of_run hopen)⟩
    refine ⟨fun hl hd => hjoins (spellCell_of_direct hcells hbefore (hletter.mp hl) (hdirect.mp hd)) rfl,
      fun a hl hb => hjoins (spellCell_of_beyond hcells hbefore (hletter.mp hl) hb.1 hb.2) rfl,
      fun hl hd hb => ⟨completeOpenWord s, rfl, ?_⟩, fun ha hd => ?_, fun hl had => ?_⟩
    · have hu : u = beginWord c.id (completeOpenWord s) :=
        spellCell_of_apart hcells hbefore (hletter.mp hl) (mt hdirect.mpr hd) hb
      exact ⟨fun hroom => hu.trans (beginWord_of_room hroom), fun hfull => hu.trans (beginWord_of_full hfull)⟩
    · refine spellCell_of_apostrophe hcells hbefore ?_ (hapostrophe.mp ha).1 (hapostrophe.mp ha).2 (hdirect.mp hd)
      rw [isApostrophe_iff.mp (hapostrophe.mp ha).2, show isLetterCode 0x27 = false by decide, Bool.and_false]
      exact Bool.false_ne_true
    · exact spellCell_of_other hcells hbefore (mt hletter.mpr hl)
        fun h => had ⟨hapostrophe.mpr h.1, hdirect.mpr h.2⟩
  case complete =>
    intro s x closed
    refine ⟨fun id h => completeOpenWord_of_word h, completeOpenWord_of_other, ?_⟩
    intro l e r hcells he hl stands
    have hstands : openWordBefore (paperCells s.line.cells) s = true ↔ stands := by
      rw [hcells, paperCells_split he hl, openWordBefore_iff]
    exact ⟨fun h => if_pos (hstands.mpr h), fun h => if_neg (mt hstands.mp h)⟩
  case classify =>
    intro s id w mark hw hn hfirst hlast hmark x letters e isDigit digit judged u long fair
    have hmark' : holdAtCompletion s id = mark := Bool.eq_iff_iff.mpr (holdAtCompletion_iff.trans hmark.symm)
    have hdigit : digitBeside s.line.cells w = true ↔ digit := by
      rw [digitBeside, Bool.or_eq_true, any_cellBefore_iff hn hfirst, any_cellAfter_iff hn hlast]
      simp only [Cell.isDigit_iff]
      rfl
    have he : wordEntry s id = e := by
      simp only [wordEntry, wordLetters, wordCells, e, letters]
    have hu {v : Verdict} (hv : classification s w e = v) (hne : v ≠ .offSkipped) :
        u = verdictFollows id e v (judged v.state v.skip x) := by
      have h := classify_of_verdict hw (he ▸ hv) hne
      rw [hmark', he] at h
      exact h
    refine ⟨fun hoff => classify_of_off hw hoff, fun hoff => ?_⟩
    have htests : classification s w e =
        if w.count = 1 then .single
        else if 24 < w.count then .long
        else if digitBeside s.line.cells w then .digit
        else if x.ignoreList.contains e then .ignored
        else if x.unit = .unavailable then .unavailable
        else if Config.checkQueueMax ≤ x.checkQueue.length then .queueFull
        else .queued := if_neg hoff
    have hfair (h : fair) : classification s w e =
        if x.ignoreList.contains e then .ignored
        else if x.unit = .unavailable then .unavailable
        else if Config.checkQueueMax ≤ x.checkQueue.length then .queueFull
        else .queued := by
      rw [htests, if_neg h.1, if_neg (Nat.not_lt.mpr h.2.1), if_neg (mt hdigit.mp h.2.2)]
    have hin : x.ignoreList.contains e = true ↔ e ∈ x.ignoreList := List.contains_iff_mem
    refine ⟨fun hone => hu (v := .single) ?_ (by decide), fun hlong => hu (v := .long) ?_ (by decide),
      fun hone hcount hd => hu (v := .digit) ?_ (by decide), fun h hi => hu (v := .ignored) ?_ (by decide),
      fun h hi hun => hu (v := .unavailable) ?_ (by decide), fun h hi hun hq => hu (v := .queueFull) ?_ (by decide),
      fun h hi hun hq => hu (v := .queued) ?_ (by decide)⟩
    · rw [htests, if_pos hone]
    · rw [htests, if_neg hlong.1, if_pos hlong.2]
    · rw [htests, if_neg hone, if_neg (Nat.not_lt.mpr hcount), if_pos (hdigit.mpr hd)]
    · rw [hfair h, if_pos (hin.mpr hi)]
    · rw [hfair h, if_neg (mt hin.mp hi), if_pos hun]
    · rw [hfair h, if_neg (mt hin.mp hi), if_neg hun, if_pos (show Config.checkQueueMax ≤ x.checkQueue.length from hq)]
    · rw [hfair h, if_neg (mt hin.mp hi), if_neg hun,
        if_neg (show ¬Config.checkQueueMax ≤ x.checkQueue.length from Nat.not_le.mpr hq)]

end Sys2Proof.Machine


/-! ## Words that lose cells, and the removal of cells (O27) -/

namespace Sys2Proof.Machine

section

variable {s : State} {id : Nat}

/-! ### Changes of a word in place -/

/-- Two changes of one word, the first of which keeps its id, are one. -/
theorem map_word_map_word {f g : Word → Word} (hf : ∀ w, (f w).id = w.id) (words : List Word) :
    (words.map fun w => if w.id = id then f w else w).map (fun w => if w.id = id then g w else w) =
      words.map fun w => if w.id = id then g (f w) else w := by
  rw [List.map_map]
  refine List.map_congr_left fun w _ => ?_
  by_cases hw : w.id = id
  · simp [hw, hf]
  · simp [hw]

/-! ### One word loses cells (R127) -/

/-- A word is under lookup. -/
def isLookedUp (x : SpellingUnit) (id : Nat) : Prop := ∃ l, x.lookup = some l ∧ l.word = id

theorem any_lookup_iff {x : SpellingUnit} : (x.lookup.any fun l => l.word == id) = true ↔ isLookedUp x id := by
  rw [Option.any_eq_true]
  simp only [beq_iff_eq]
  rfl

/-- The state with another Spelling Unit, the lookup of a word given up where it was under way. -/
def unitAfterLoss (id : Nat) (x : SpellingUnit) (s : State) : State :=
  if x.lookup.any fun l => l.word == id then abandonLookup { s with spelling := x } else { s with spelling := x }

theorem unitAfterLoss_of_lookedUp {x : SpellingUnit} (h : isLookedUp x id) :
    unitAfterLoss id x s = withdrawUser .lookup { s with spelling := { x with lookup := none } } :=
  if_pos (any_lookup_iff.mpr h)

theorem unitAfterLoss_of_not {x : SpellingUnit} (h : ¬isLookedUp x id) : unitAfterLoss id x s = { s with spelling := x } :=
  if_neg (mt any_lookup_iff.mp h)

theorem removeWordRecord_eq : removeWordRecord id s =
    unitAfterLoss id { s.spelling with
      words := s.spelling.words.filter fun w => w.id != id
      checkQueue := s.spelling.checkQueue.filter fun q => q != id
      openWord := if s.spelling.openWord = .word id then .none else s.spelling.openWord
      pendingApostrophe := if s.spelling.openWord = .word id then none else s.spelling.pendingApostrophe } s := by
  by_cases h : s.spelling.openWord = .word id
  · simp only [removeWordRecord, unitAfterLoss, h, if_true]
    rfl
  · simp only [removeWordRecord, unitAfterLoss, h, if_false]

/-- A word that is reopened. -/
def Word.reopened (w : Word) : Word :=
  { w with
    state := .opened, skip := none, generation := (w.generation + 1) % 256, holdMark := false, accepted := false }

theorem reopenWord_eq : reopenWord id s =
    unitAfterLoss id { s.spelling with
      words := s.spelling.words.map fun v => if v.id = id then v.reopened else v
      checkQueue := s.spelling.checkQueue.filter fun q => q != id } s := rfl

/-- A word with the cells that it has left, the first and the last of them given. -/
def Word.shortened (n : Nat) (first last : Cell) (w : Word) : Word :=
  { w with count := n, first := first.id, last := last.id }

theorem reopenWord_openWord : (reopenWord id s).spelling.openWord = s.spelling.openWord := by
  rw [reopenWord_eq, unitAfterLoss]
  split <;> rfl

theorem reopenWord_line : (reopenWord id s).line = s.line := by
  rw [reopenWord_eq, unitAfterLoss]
  split <;> rfl

section
variable {byHeld : Bool} {w : Word} (hw : findWord s.spelling.words id = some w)
include hw

theorem wordLoses_of_empty (h : wordCells s.line.cells id = []) : wordLoses byHeld id s = removeWordRecord id s := by
  rw [wordLoses, hw, h]

variable {left : List Cell} {f l : Cell} (hleft : wordCells s.line.cells id = left) (hf : left.head? = some f)
  (hl : left.getLast? = some l)
include hleft hf hl

/-- The cases of a word that still has cells. -/
theorem wordLoses_of_left : wordLoses byHeld id s =
    if w.state = .opened then modifyWord id (Word.shortened left.length f l) s
    else if byHeld = true ∧ s.spelling.openWord = .none ∧ s.line.cells.getLast?.map (·.id) = some l.id then
      { reopenWord id (modifyWord id (Word.shortened left.length f l) s) with
        spelling := { (reopenWord id (modifyWord id (Word.shortened left.length f l) s)).spelling with
          openWord := .word id, pendingApostrophe := none } }
    else classify id (reopenWord id (modifyWord id (Word.shortened left.length f l) s)) := by
  obtain ⟨rest, rfl⟩ := List.head?_eq_some_iff.mp hf
  simp only [wordLoses, hw, hleft, hl, Option.getD_some, reopenWord_openWord, reopenWord_line]
  rfl

end

/-! ### The Spelling Unit is told of removed cells (R124, R127) -/

theorem shortenRun_of_not_run {gone : List Nat} (h : ∀ run, s.spelling.openWord ≠ .unlisted run) :
    shortenRun gone s = s := by
  unfold shortenRun
  split
  next run hrun => exact absurd hrun (h run)
  all_goals rfl

theorem shortenRun_of_gone {gone run : List Nat} (h : s.spelling.openWord = .unlisted run)
    (hgone : ∀ c ∈ run, c ∈ gone) : shortenRun gone s = closeOpenWord s := by
  have hrest : run.filter (fun c => !gone.contains c) = [] := by simpa using hgone
  simp only [shortenRun, h, hrest]

theorem shortenRun_of_left {gone run : List Nat} (h : s.spelling.openWord = .unlisted run)
    (hleft : ∃ c ∈ run, c ∉ gone) : shortenRun gone s =
      { s with spelling := { s.spelling with openWord := .unlisted (run.filter fun c => !gone.contains c) } } := by
  have hrest : run.filter (fun c => !gone.contains c) ≠ [] := by simpa using hleft
  obtain ⟨c, cs, hcs⟩ := List.exists_cons_of_ne_nil hrest
  simp only [shortenRun, h, hcs]

theorem wordsOf_of_none {removed : List Cell} (h : ∀ c ∈ removed, c.word = none) : wordsOf removed = [] := by
  rw [wordsOf, List.filterMap_eq_nil_iff.mpr h]
  rfl

theorem wordsOf_of_one {removed : List Cell} (h : ∀ c ∈ removed, c.word = none ∨ c.word = some id)
    (hone : ∃ c ∈ removed, c.word = some id) : wordsOf removed = [id] := by
  have hmem (i : Nat) : i ∈ wordsOf removed ↔ i = id := by
    rw [wordsOf, List.mem_dedup, List.mem_filterMap]
    constructor
    · rintro ⟨c, hc, hi⟩
      obtain hnone | hid := h c hc
      · rw [hnone] at hi; cases hi
      · exact Option.some.inj (hi.symm.trans hid)
    · rintro rfl
      exact hone
  have hnodup : (wordsOf removed).Nodup := List.nodup_dedup _
  exact List.perm_singleton.mp ((List.perm_ext_iff_of_nodup hnodup (List.nodup_singleton id)).mpr
    fun i => (hmem i).trans List.mem_singleton.symm)

/-- The state in which the apostrophe that waited no longer waits where its cell has gone. -/
def apostropheKept (gone : List Nat) (s : State) : State :=
  { s with spelling :=
    { s.spelling with pendingApostrophe := s.spelling.pendingApostrophe.filter fun c => !gone.contains c } }

theorem spellRemoved_of_words {byHeld : Bool} {removed : List Cell} {ids : List Nat} (h : wordsOf removed = ids) :
    spellRemoved byHeld removed s =
      ids.foldl (fun s i => wordLoses byHeld i s)
        (shortenRun (removed.map (·.id)) (apostropheKept (removed.map (·.id)) s)) := by
  rw [← h]
  rfl

/-! ### The removal of cells (R9, R12, R145) -/

theorem markAfterRemoval_of_other {gone : Cell → Bool} {cells : List Cell} {m : Nat} (h : ∀ c ∈ cells, c.id ≠ m) :
    markAfterRemoval gone cells (some m) = some m :=
  if_neg (by simpa using fun c hc hid => absurd hid (h c hc))

section
variable {gone : Cell → Bool} {before after : List Cell} {c : Cell}
  (hn : ((before ++ c :: after).map (·.id)).Nodup)
include hn

theorem markAfterRemoval_of_kept (h : gone c = false) :
    markAfterRemoval gone (before ++ c :: after) (some c.id) = some c.id := by
  refine if_neg ?_
  rw [List.any_eq_true]
  rintro ⟨d, hd, hgone⟩
  rw [Bool.and_eq_true, beq_iff_eq] at hgone
  have hdc : d = c := List.inj_on_of_nodup_map hn hd (by simp) hgone.1
  rw [hdc, h] at hgone
  exact absurd hgone.2 (by decide)

theorem markAfterRemoval_of_gone (h : gone c = true) :
    markAfterRemoval gone (before ++ c :: after) (some c.id) =
      ((before.filter fun d => !gone d).getLast?).map (·.id) := by
  have hbefore := id_ne_of_nodup hn
  refine (if_pos (by simp [h])).trans ?_
  rw [List.takeWhile_append_of_pos (by simpa using hbefore), List.takeWhile_cons_of_neg (by simp), List.append_nil]

end

theorem windowAfterRemoval_eq (gone : Cell → Bool) (cells : List Cell) (ws : Nat) :
    windowAfterRemoval gone cells ws =
      if ∀ c ∈ cells, gone c = true then 0 else ws - ((cells.take ws).filter gone).length :=
  if_congr List.all_eq_true rfl rfl

theorem correctWindow_eq (ws : Nat) : correctWindow ws s =
    if s.display.rendered = true ∧ ws ≠ s.display.windowStart then
      { s.display with windowStart := ws, cursorBlinkOn := true, cursorBlinkDue := s.now + 4000 }
    else { s.display with windowStart := ws } :=
  if_congr (by rw [Bool.and_eq_true, bne_iff_ne]) rfl rfl

end

/-- Settles O27: one word that loses cells by what it has left, the run that found the table full, and the removal
part by part. -/
theorem words_that_lose_cells_go_or_reopen : Obligations.words_that_lose_cells_go_or_reopen := by
  refine ⟨?word, ?run, ?remove⟩
  case word =>
    intro byHeld removed id w s hwords hone hw hrun u x left lookedUp without queue
    have hu : u = wordLoses byHeld id { s with spelling := x } := by
      refine (spellRemoved_of_words (wordsOf_of_one hwords hone)).trans ?_
      rw [shortenRun_of_not_run (s := apostropheKept (removed.map (·.id)) s) hrun]
      rfl
    have hwithout {y : SpellingUnit} (h : y.lookup = x.lookup) : without y (unitAfterLoss id y s) := by
      have hlooked : isLookedUp y id ↔ lookedUp := by rw [isLookedUp, h]
      exact ⟨fun hl => unitAfterLoss_of_lookedUp (hlooked.mpr hl), fun hl => unitAfterLoss_of_not (mt hlooked.mp hl)⟩
    refine ⟨fun hempty => ?_, ?_⟩
    · rw [hu, wordLoses_of_empty (s := { s with spelling := x }) hw hempty, removeWordRecord_eq]
      exact hwithout rfl
    intro f l hf hl shorter
    have hcases := wordLoses_of_left (byHeld := byHeld) (s := { s with spelling := x }) hw (left := left) rfl hf hl
    refine ⟨fun hopen => ?_, fun hopen => ?_⟩
    · rw [hu, hcases, if_pos hopen]
      rfl
    rw [if_neg hopen] at hcases
    refine ⟨reopenWord id (modifyWord id (Word.shortened left.length f l) { s with spelling := x }), ?_, ?_⟩
    · rw [reopenWord_eq]
      simp only [modifyWord, map_word_map_word (f := Word.shortened left.length f l) fun _ => rfl]
      exact hwithout rfl
    · intro open_
      exact ⟨fun h => hu.trans (hcases.trans (if_pos h)), fun h => hu.trans (hcases.trans (if_neg h))⟩
  case run =>
    intro byHeld removed s hnone u gone after apostrophe
    have hu : u = shortenRun gone (apostropheKept gone s) := spellRemoved_of_words (wordsOf_of_none hnone)
    refine ⟨fun run hrun => ⟨fun hgone => ?_, fun hleft => ?_⟩, fun hrun => ?_⟩
    · rw [hu, shortenRun_of_gone (s := apostropheKept gone s) hrun hgone]
      rfl
    · rw [hu, shortenRun_of_left (s := apostropheKept gone s) hrun hleft]
      rfl
    · rw [hu, shortenRun_of_not_run (s := apostropheKept gone s) hrun]
      rfl
  case remove =>
    intro byHeld gone s hn cells d ws
    refine ⟨markAfterRemoval gone cells s.line.releaseMark, fun hmark => by rw [hmark]; rfl,
      fun m hmark hother => by rw [hmark, markAfterRemoval_of_other hother], fun l c r hcells hmark => ?_, ?_⟩
    · rw [hmark]
      have hn' := hn
      rw [show s.line.cells = _ from hcells] at hn'
      rw [hcells]
      exact ⟨markAfterRemoval_of_kept hn', markAfterRemoval_of_gone hn'⟩
    · rw [removeCells, dropCells, correctWindow_eq, windowAfterRemoval_eq]

end Sys2Proof.Machine


/-! ## Loading a profile by records (O28) -/

namespace Sys2Proof.Machine

section

variable {s : State} {w : WheelUnit} {code k : Nat}

/-! ### The cache slot that R45 chooses -/

theorem find_slot_eq_some {p : Nat → Bool} (hk : k = 0 ∨ k = 1) (h : p k = true) (hfirst : k = 1 → ¬p 0 = true) :
    [0, 1].find? p = some k := by
  obtain rfl | rfl := hk
  · exact List.find?_cons_of_pos h
  · rw [List.find?_cons_of_neg (hfirst rfl), List.find?_cons_of_pos h]

theorem find_slot_eq_none {p : Nat → Bool} (h0 : ¬p 0 = true) (h1 : ¬p 1 = true) : [0, 1].find? p = none := by
  rw [List.find?_cons_of_neg h0, List.find?_cons_of_neg h1, List.find?_nil]

/-- A cache slot holds a profile of a wheel code. -/
def cacheHolds (w : WheelUnit) (code i : Nat) : Prop := ∃ p, w.cache[i]? = some (some p) ∧ p.code = code

theorem any_cache_iff {i : Nat} :
    (((w.cache[i]?).join).any fun p => p.code == code) = true ↔ cacheHolds w code i := by
  simp [Option.any_eq_true, cacheHolds, Option.join_eq_some_iff]

theorem cacheSlotOf_of_holds (hk : k = 0 ∨ k = 1) (h : cacheHolds w code k) (hfirst : k = 1 → ¬cacheHolds w code 0) :
    cacheSlotOf w code = some k :=
  find_slot_eq_some hk (any_cache_iff.mpr h) fun hone => mt any_cache_iff.mp (hfirst hone)

theorem cacheSlotOf_of_none (h0 : ¬cacheHolds w code 0) (h1 : ¬cacheHolds w code 1) : cacheSlotOf w code = none :=
  find_slot_eq_none (mt any_cache_iff.mp h0) (mt any_cache_iff.mp h1)

theorem fetchSlot_eq_some_iff {i : Nat} :
    fetchSlot w = some i ↔ ∃ c d b, w.fetch = some { code := c, progress := .reading d i b } := by
  unfold fetchSlot
  split
  next c d slot b h =>
    rw [h]
    constructor
    · rintro hi
      exact ⟨c, d, b, by rw [Option.some.inj hi]⟩
    · rintro ⟨c', d', b', heq⟩
      injection heq with heq
      injection heq with _ heq
      injection heq with _ hi _
      rw [hi]
  next h =>
    refine iff_of_false (by simp) ?_
    rintro ⟨c, d, b, heq⟩
    exact h c d i b heq

theorem slotOpen_iff {i : Nat} : slotOpen w i = true ↔
    w.active ≠ some i ∧ ∀ c d b, w.fetch ≠ some { code := c, progress := .reading d i b } := by
  rw [slotOpen, Bool.and_eq_true, bne_iff_ne, bne_iff_ne, ne_eq (fetchSlot w), fetchSlot_eq_some_iff]
  simp only [not_exists, ne_eq]

theorem isNone_slot_iff {i : Nat} :
    ((w.cache[i]?).join).isNone = true ↔ ∀ p, w.cache[i]? ≠ some (some p) := by
  rw [Option.isNone_iff_eq_none, Option.eq_none_iff_forall_ne_some]
  simp only [ne_eq, Option.join_eq_some_iff]

/-- The slot that R45 describes is the one that the Wheel Unit chooses. -/
theorem chooseSlot_of_slotFor (h : slotFor w code k) : chooseSlot w code = k := by
  obtain ⟨hk, ⟨hholds, hfirst⟩ | ⟨h0, h1, hfree, hcase⟩⟩ := h
  · rw [chooseSlot, cacheSlotOf_of_holds hk hholds hfirst]
  rw [chooseSlot, cacheSlotOf_of_none h0 h1]
  have hempty (i : Nat) : (slotOpen w i && ((w.cache[i]?).join).isNone) = true ↔
      (w.active ≠ some i ∧ ∀ c d b, w.fetch ≠ some { code := c, progress := .reading d i b }) ∧
        ∀ p, w.cache[i]? ≠ some (some p) := by
    rw [Bool.and_eq_true, slotOpen_iff, isNone_slot_iff]
  obtain ⟨hnone, hfirst⟩ | ⟨hno0, hno1, l, r, hrecency, hr⟩ := hcase
  · rw [find_slot_eq_some hk ((hempty k).mpr ⟨hfree, hnone⟩) fun hone => mt (hempty 0).mp (hfirst hone)]
  · rw [find_slot_eq_none (mt (hempty 0).mp hno0) (mt (hempty 1).mp hno1), hrecency, List.reverse_append,
      List.reverse_cons, List.append_assoc, List.find?_append,
      List.find?_eq_none.mpr fun j hj => mt slotOpen_iff.mp (hr j (List.mem_reverse.mp hj)),
      Option.none_or, List.singleton_append, List.find?_cons_of_pos (slotOpen_iff.mpr hfree)]
    rfl

/-! ### A fetch given up (R48) -/

/-- What R48 describes is what giving up the fetch does. -/
theorem abandonFetch_of_abandoned {t : State} (h : fetchAbandoned s t) : abandonFetch s = t := by
  obtain ⟨hnone, hwaiting, hreading⟩ := h
  match hf : s.wheel.fetch with
  | none => rw [abandonFetch, hf, hnone hf]
  | some ⟨c, .waitingDirectory⟩ =>
    rw [hwaiting c hf]
    simp only [abandonFetch, hf]
    rfl
  | some ⟨c, .reading d slot b⟩ =>
    rw [hreading c d slot b hf]
    simp only [abandonFetch, hf]
    rfl

/-- Giving up the fetch changes the fetch, the cache and the memory's requests. -/
theorem abandonFetch_parts (s : State) : ∃ cache m, abandonFetch s =
    { s with wheel := { s.wheel with fetch := none, cache := cache }, memory := m } ∧
      cache.length = s.wheel.cache.length := by
  unfold abandonFetch
  split
  next h =>
    refine ⟨s.wheel.cache, s.memory, ?_, rfl⟩
    rw [← h]
  next f h =>
    refine ⟨_, _, rfl, ?_⟩
    split
    · rfl
    · exact List.length_set ..

/-! ### A profile placed in the cache, and made active (R45, R53) -/

theorem activeProfile_of_slot {slot : Nat} {p : Profile} (h : w.active = some slot)
    (hcache : w.cache[slot]? = some (some p)) : activeProfile w = some p := by
  rw [activeProfile, h]
  exact congrArg Option.join hcache

theorem rebuildMap_of_active {p : Profile} (h : activeProfile w = some p) :
    rebuildMap w = { w with glyphMap := buildMap p.petals } := by
  rw [rebuildMap, h]

/-- A profile in its slot of the cache. -/
def cachePlaced (slot : Nat) (p : Profile) (w : WheelUnit) : WheelUnit :=
  { w with
    cache := w.cache.set slot (some p), recency := touch slot w.recency
    glyphMap := if w.active = some slot then buildMap p.petals else w.glyphMap }

theorem placeProfile_of_slotFor {p : Profile} (h : slotFor w p.code k) (hk : k < w.cache.length) :
    placeProfile p w = cachePlaced k p w := by
  simp only [placeProfile, chooseSlot_of_slotFor h, cachePlaced]
  split
  next hactive => exact rebuildMap_of_active (activeProfile_of_slot hactive (List.getElem?_set_self hk))
  next => rfl

theorem touch_touch (slot : Nat) (l : List Nat) : touch slot (touch slot l) = touch slot l := by
  simp [touch, List.filter_filter]

/-- The profile of a slot becomes active. -/
theorem activate_eq {slot : Nat} {p : Profile} (hcache : w.cache[slot]? = some (some p)) :
    activate slot w = { w with
      active := some slot, recency := touch slot w.recency, resolution := .settled
      glyphMap := buildMap p.petals } :=
  rebuildMap_of_active (activeProfile_of_slot (slot := slot) rfl hcache)

/-- WHEEL (ACTIVE): the pitch, whether it differs from the format's, and the source. -/
theorem raiseActive_of_active {p : Profile} {source : Nat} (h : activeProfile s.wheel = some p) :
    raiseActive source s = raise .wheel 0
      [byte p.pitch.code, if p.pitch = s.composer.format.pitch then 0 else 1, byte source] s := by
  have hdiffers : byte (boolCode (p.pitch != s.composer.format.pitch)) =
      if p.pitch = s.composer.format.pitch then 0 else 1 := by
    by_cases hp : p.pitch = s.composer.format.pitch
    · rw [if_pos hp, bne_eq_false_iff_eq.mpr hp]; rfl
    · rw [if_neg hp, bne_iff_ne.mpr hp]; rfl
  rw [raiseActive, h]
  simp only [hdiffers]

/-- The placing of the staged record, the fetch of its code given up before. -/
theorem placeStaged_eq {t : State}
    (hother : (∀ f, s.wheel.fetch = some f → f.code ≠ s.wheel.staging.code) → t = s)
    (hsame : ∀ f, s.wheel.fetch = some f → f.code = s.wheel.staging.code → fetchAbandoned s t) :
    placeStaged s =
      let placed := setWheel (placeProfile s.wheel.staging.profile t.wheel) t
      if s.wheel.staging.code = t.wheel.mounted then
        raiseActive 2 (setWheel (activate (chooseSlot t.wheel s.wheel.staging.code) placed.wheel) placed)
      else placed := by
  have ht : (if s.wheel.fetch.any fun f => f.code == s.wheel.staging.profile.code then abandonFetch s else s) = t := by
    by_cases hf : ∃ f, s.wheel.fetch = some f ∧ f.code = s.wheel.staging.code
    · obtain ⟨f, hf, hc⟩ := hf
      rw [if_pos (by rw [hf]; exact beq_iff_eq.mpr hc), abandonFetch_of_abandoned (hsame f hf hc)]
    · have hnot : ∀ f, s.wheel.fetch = some f → f.code ≠ s.wheel.staging.code := fun f hf' hc => hf ⟨f, hf', hc⟩
      rw [hother hnot, if_neg]
      rw [Option.any_eq_true]
      rintro ⟨f, hf', hc⟩
      exact hnot f hf' (beq_iff_eq.mp hc)
  simp only [placeStaged, ht]
  have hmounted : (placeProfile s.wheel.staging.profile t.wheel).mounted = t.wheel.mounted := by
    rw [placeProfile]
    split <;> rfl
  rw [setWheel_wheel, hmounted]
  rfl

/-- The profile directory and the staging. -/
def directoryAndStaging (s : State) : List (Option Nat) × Staging := (s.wheel.directory, s.wheel.staging)

theorem abandonFetch_directoryAndStaging (s : State) :
    directoryAndStaging (abandonFetch s) = directoryAndStaging s := by
  obtain ⟨cache, m, heq, -⟩ := abandonFetch_parts s
  rw [heq]
  rfl

theorem raiseActive_directoryAndStaging (source : Nat) (s : State) :
    directoryAndStaging (raiseActive source s) = directoryAndStaging s := by
  rw [raiseActive]
  split
  · rfl
  · rw [raise]
    split <;> rfl

theorem placeProfile_directory (p : Profile) (w : WheelUnit) : (placeProfile p w).directory = w.directory := by
  rw [placeProfile]
  split <;> rfl

theorem placeProfile_staging (p : Profile) (w : WheelUnit) : (placeProfile p w).staging = w.staging := by
  rw [placeProfile]
  split <;> rfl

/-- What the placing leaves. -/
theorem placeStaged_directoryAndStaging (s : State) :
    directoryAndStaging (placeStaged s) = directoryAndStaging s := by
  have hstart : directoryAndStaging
      (if s.wheel.fetch.any fun f => f.code == s.wheel.staging.profile.code then abandonFetch s else s) =
        directoryAndStaging s := by
    split
    · exact abandonFetch_directoryAndStaging s
    · rfl
  rw [← hstart]
  simp only [placeStaged]
  generalize (if s.wheel.fetch.any fun f => f.code == s.wheel.staging.profile.code then abandonFetch s else s) = t
  have hplaced : directoryAndStaging (setWheel (placeProfile s.wheel.staging.profile t.wheel) t) =
      directoryAndStaging t :=
    Prod.ext (placeProfile_directory _ t.wheel) (placeProfile_staging _ t.wheel)
  split
  · exact (raiseActive_directoryAndStaging 2 _).trans hplaced
  · exact hplaced

/-! ### The staging buffer (R49, R50) -/

theorem clearMiddle_iff {c : Byte} : (c &&& 0x78) = 0 ↔ c.toNat % 128 = c.toNat % 8 := by
  revert c; decide

theorem topBit_eq {c : Byte} : ((c &&& 0x80) != 0) = decide (128 ≤ c.toNat) := by
  revert c; decide

theorem toNat_and_seven {c : Byte} : (c &&& 0x07).toNat = c.toNat % 8 := by
  rw [BitVec.toNat_and]
  exact Nat.and_two_pow_sub_one_eq_mod c.toNat 3

/-- R44: the three bytes of a petal entry that is allowed. -/
def isPetal (p : Byte × Byte × Byte) : Prop :=
  (p.1 = 0 ∨ isGlyphCode p.1 = true) ∧ 4 ≤ p.2.1.toNat ∧ p.2.1.toNat ≤ 18 ∧ (p.2.2 &&& 0x78) = 0 ∧
    1 ≤ (p.2.2 &&& 0x07).toNat ∧ (p.2.2 &&& 0x07).toNat ≤ 5

/-- The petal entry of three bytes. -/
def petalOf (p : Byte × Byte × Byte) : PetalEntry :=
  { glyph := p.1, width := p.2.1.toNat, impression := (p.2.2 &&& 0x07).toNat, accent := (p.2.2 &&& 0x80) != 0 }

theorem isPetal_iff {p : Byte × Byte × Byte} : isPetal p ↔
    (p.1.toNat = 0 ∨ isGlyphCode p.1) ∧ 4 ≤ p.2.1.toNat ∧ p.2.1.toNat ≤ 18 ∧ 1 ≤ p.2.2.toNat % 8 ∧
      p.2.2.toNat % 8 ≤ 5 ∧ p.2.2.toNat % 128 = p.2.2.toNat % 8 := by
  rw [isPetal, clearMiddle_iff, toNat_and_seven, eq_iff_toNat_eq, show (0 : Byte).toNat = 0 from rfl]
  tauto

theorem PetalEntry.ofBytes_of_isPetal {p : Byte × Byte × Byte} (h : isPetal p) :
    PetalEntry.ofBytes p.1 p.2.1 p.2.2 = some (petalOf p) := by
  rw [petalOf, toNat_and_seven, topBit_eq]
  exact if_pos (isPetal_iff.mp h)

theorem PetalEntry.ofBytes_of_not_isPetal {p : Byte × Byte × Byte} (h : ¬isPetal p) :
    PetalEntry.ofBytes p.1 p.2.1 p.2.2 = none :=
  if_neg (mt isPetal_iff.mpr h)

/-- The bytes of a record's entries. -/
def petalBytes (ps : List (Byte × Byte × Byte)) : List Byte := ps.flatMap fun p => [p.1, p.2.1, p.2.2]

theorem petalEntries_cons (p : Byte × Byte × Byte) (rest : List Byte) :
    petalEntries (p.1 :: p.2.1 :: p.2.2 :: rest) =
      (PetalEntry.ofBytes p.1 p.2.1 p.2.2).bind fun e => (petalEntries rest).map (e :: ·) := by
  rw [petalEntries]
  cases PetalEntry.ofBytes p.1 p.2.1 p.2.2 <;> cases petalEntries rest <;> rfl

theorem petalEntries_of_allowed {ps : List (Byte × Byte × Byte)} (h : ∀ p ∈ ps, isPetal p) :
    petalEntries (petalBytes ps) = some (ps.map petalOf) := by
  induction ps with
  | nil => rfl
  | cons p ps ih =>
    have htail := ih fun q hq => h q (List.mem_cons_of_mem _ hq)
    refine (petalEntries_cons p (petalBytes ps)).trans ?_
    rw [PetalEntry.ofBytes_of_isPetal (h p List.mem_cons_self), htail]
    rfl

theorem petalEntries_of_not_allowed {ps : List (Byte × Byte × Byte)} (h : ¬∀ p ∈ ps, isPetal p) :
    petalEntries (petalBytes ps) = none := by
  induction ps with
  | nil => exact absurd (by simp) h
  | cons p ps ih =>
    refine (petalEntries_cons p (petalBytes ps)).trans ?_
    by_cases hp : isPetal p
    · have htail : ¬∀ q ∈ ps, isPetal q := fun hps => h (List.forall_mem_cons.mpr ⟨hp, hps⟩)
      rw [ih htail]
      cases PetalEntry.ofBytes p.1 p.2.1 p.2.2 <;> rfl
    · rw [PetalEntry.ofBytes_of_not_isPetal hp]
      rfl

/-- Only whole entries are entries. -/
theorem length_of_petalEntries {l : List Byte} {ps : List PetalEntry} (h : petalEntries l = some ps) :
    l.length = 3 * ps.length := by
  fun_induction petalEntries l generalizing ps with
  | case1 => cases h; rfl
  | case2 g w c rest ih =>
    obtain ⟨p, -, h⟩ := Option.bind_eq_some_iff.mp h
    obtain ⟨qs, hqs, h⟩ := Option.bind_eq_some_iff.mp h
    cases h
    have hlen := ih hqs
    simp only [List.length_cons]
    omega
  | case3 => cases h

theorem petalRecord_of_ragged {b : List Byte} (h : b.length % 3 ≠ 1) : petalRecord b = none := by
  cases b with
  | nil => rfl
  | cons f rest =>
    have hrest : petalEntries rest = none := by
      rw [Option.eq_none_iff_forall_ne_some]
      intro ps hps
      have hlen := length_of_petalEntries hps
      rw [List.length_cons] at h
      omega
    rw [petalRecord, hrest]

theorem petalRecord_of_allowed {f : Byte} {ps : List (Byte × Byte × Byte)} (hmin : 1 ≤ ps.length)
    (hmax : ps.length ≤ 16) (hend : f.toNat + ps.length ≤ 96) (h : ∀ p ∈ ps, isPetal p) :
    petalRecord (f :: petalBytes ps) = some (f.toNat, ps.map petalOf) := by
  simp only [petalRecord, petalEntries_of_allowed h, List.length_map]
  exact if_pos ⟨hmin, hmax, hend⟩

theorem petalRecord_of_not_allowed {f : Byte} {ps : List (Byte × Byte × Byte)}
    (h : ¬(1 ≤ ps.length ∧ ps.length ≤ 16 ∧ f.toNat + ps.length ≤ 96 ∧ ∀ p ∈ ps, isPetal p)) :
    petalRecord (f :: petalBytes ps) = none := by
  by_cases hps : ∀ p ∈ ps, isPetal p
  · simp only [petalRecord, petalEntries_of_allowed hps, List.length_map]
    exact if_neg fun hlen => h ⟨hlen.1, hlen.2.1, hlen.2.2, hps⟩
  · rw [petalRecord, petalEntries_of_not_allowed hps]

theorem length_stagePetals (f : Nat) (ps : List PetalEntry) (petals : List (Option PetalEntry)) :
    (stagePetals f ps petals).length = petals.length := by
  induction ps generalizing f petals with
  | nil => rfl
  | cons p ps ih => rw [stagePetals, ih, List.length_set]

theorem stagePetals_outside {f i : Nat} {ps : List PetalEntry} (h : i < f ∨ f + ps.length ≤ i)
    (petals : List (Option PetalEntry)) : (stagePetals f ps petals)[i]? = petals[i]? := by
  induction ps generalizing f petals with
  | nil => rfl
  | cons p ps ih =>
    rw [List.length_cons] at h
    rw [stagePetals, ih (by omega), List.getElem?_set_ne (by omega)]

theorem stagePetals_within {f i : Nat} {ps : List PetalEntry} {p : PetalEntry} {petals : List (Option PetalEntry)}
    (hi : f + i < petals.length) (h : ps[i]? = some p) : (stagePetals f ps petals)[f + i]? = some (some p) := by
  induction ps generalizing f i petals with
  | nil => simp at h
  | cons q ps ih =>
    rw [stagePetals]
    cases i with
    | zero =>
      rw [stagePetals_outside (by omega)]
      exact (List.getElem?_set_self hi).trans (congrArg some h)
    | succ i =>
      have := ih (f := f + 1) (i := i) (petals := petals.set f (some q)) (by rw [List.length_set]; omega) h
      rwa [show f + 1 + i = f + (i + 1) by omega] at this

theorem underscoreOfByte_of_allowed {b : Byte} (h : b.toNat ≤ 95 ∨ b = 0xFF) :
    underscoreOfByte b = some (if b = 0xFF then none else some b.toNat) := by
  rw [underscoreOfByte]
  obtain h | rfl := h
  · have hne : b ≠ 0xFF := fun he => absurd h (by rw [he]; decide)
    rw [if_neg (by omega), if_pos h, if_neg hne]
  · rfl

theorem underscoreOfByte_of_not_allowed {b : Byte} (h : ¬(b.toNat ≤ 95 ∨ b = 0xFF)) : underscoreOfByte b = none := by
  rw [not_or, eq_iff_toNat_eq] at h
  rw [underscoreOfByte, if_neg (show ¬b.toNat = 0xFF from h.2), if_neg h.1]

theorem headerAllowed_iff {code width : Nat} :
    headerAllowed code width = true ↔ (1 ≤ code ∧ code ≤ 63) ∧ 6 ≤ width ∧ width ≤ 12 := by
  simp [headerAllowed, and_assoc]

section
variable {code pitch width under : Byte}

/-- R44, R49: the four bytes of a header that is allowed. -/
def isHeader (code pitch width under : Byte) : Prop :=
  (1 ≤ code.toNat ∧ code.toNat ≤ 63) ∧ pitch.toNat ∈ [10, 12, 15, 0] ∧
    (6 ≤ width.toNat ∧ width.toNat ≤ 12) ∧ (under.toNat ≤ 95 ∨ under = 0xFF)

/-- The staging that a BEGIN opens. -/
def stagingOpened (code width under : Byte) (p : Pitch) : Staging :=
  { state := .opened, code := code.toNat, pitch := p, spaceWidth := width.toNat
    underscore := if under = 0xFF then none else some under.toNat, petals := List.replicate 96 none }

theorem stagingOf_eq : stagingOf [code, pitch, width, under] =
    (Pitch.ofCode pitch.toNat).bind fun p => (underscoreOfByte under).bind fun u =>
      if headerAllowed code.toNat width.toNat then
        some { state := .opened, code := code.toNat, pitch := p, spaceWidth := width.toNat, underscore := u,
               petals := List.replicate 96 none }
      else none := rfl

theorem stagingOf_of_allowed (h : isHeader code pitch width under) :
    ∃ p : Pitch, p.code = pitch.toNat ∧
      stagingOf [code, pitch, width, under] = some (stagingOpened code width under p) := by
  obtain ⟨hcode, hpitch, hwidth, hunder⟩ := h
  obtain ⟨p, hp⟩ := Pitch.exists_code_iff.mpr hpitch
  refine ⟨p, Pitch.ofCode_iff.mp hp, ?_⟩
  rw [stagingOf_eq, hp, underscoreOfByte_of_allowed hunder]
  exact if_pos (headerAllowed_iff.mpr ⟨hcode, hwidth⟩)

theorem stagingOf_of_not_allowed (h : ¬isHeader code pitch width under) :
    stagingOf [code, pitch, width, under] = none := by
  rw [Option.eq_none_iff_forall_ne_some, stagingOf_eq]
  intro g hg
  obtain ⟨p, hp, hg⟩ := Option.bind_eq_some_iff.mp hg
  obtain ⟨u, hu, hg⟩ := Option.bind_eq_some_iff.mp hg
  refine h ⟨?_, Pitch.exists_code_iff.mp ⟨p, hp⟩, ?_, ?_⟩
  · by_contra hcode
    rw [if_neg fun hall => hcode (headerAllowed_iff.mp hall).1] at hg
    cases hg
  · by_contra hwidth
    rw [if_neg fun hall => hwidth (headerAllowed_iff.mp hall).2] at hg
    cases hg
  · by_contra hunder
    rw [underscoreOfByte_of_not_allowed hunder] at hu
    cases hu

end

/-! ### LOAD-WHEEL-END (R51, R52) -/

theorem underscoreAllowed_iff {petals : List PetalEntry} {o : Option Nat} : underscoreAllowed petals o = true ↔
    ∀ u, o = some u → ∃ p, petals[u]? = some p ∧ p.glyph ≠ 0 ∧ p.accent = false := by
  cases o with
  | none => simp [underscoreAllowed]
  | some u =>
    rw [underscoreAllowed]
    cases hp : petals[u]? with
    | none => simp [hp]
    | some p =>
      simp only [Option.some.injEq, forall_eq', hp, exists_eq_left', Bool.and_eq_true, bne_iff_ne, Bool.not_eq_true',
        ne_eq]
      exact and_congr_left' (not_congr (eq_iff_toNat_eq (b := p.glyph) (c := 0)).symm)

theorem stagingComplete_iff {g : Staging} : stagingComplete g = true ↔
    (∀ p ∈ g.petals, p ≠ none) ∧
      ∀ u, g.underscore = some u → ∃ p, (g.petals.filterMap id)[u]? = some p ∧ p.glyph ≠ 0 ∧ p.accent = false := by
  rw [stagingComplete, Bool.and_eq_true, List.all_eq_true, underscoreAllowed_iff]
  simp only [Option.isSome_iff_ne_none]

theorem findIdx?_eq_some_entry_iff {l : List (Option Nat)} {e : Option Nat} {p : Option Nat → Bool}
    (hp : ∀ x, p x = true ↔ x = e) :
    l.findIdx? p = some k ↔ l[k]? = some e ∧ ∀ j < k, l[j]? ≠ some e := by
  rw [List.findIdx?_eq_some_iff_getElem]
  constructor
  · rintro ⟨hk, hpk, hbefore⟩
    refine ⟨by rw [List.getElem?_eq_getElem hk, (hp _).mp hpk], fun j hj hje => hbefore j hj ((hp _).mpr ?_)⟩
    rw [List.getElem?_eq_getElem (by omega)] at hje
    exact Option.some.inj hje
  · rintro ⟨hk, hbefore⟩
    obtain ⟨hlt, hke⟩ := List.getElem?_eq_some_iff.mp hk
    refine ⟨hlt, (hp _).mpr hke, fun j hj hpj => hbefore j hj ?_⟩
    rw [List.getElem?_eq_getElem (by omega), (hp _).mp hpj]

theorem findIdx?_entry_eq_none_iff {l : List (Option Nat)} {e : Option Nat} {p : Option Nat → Bool}
    (hp : ∀ x, p x = true ↔ x = e) : l.findIdx? p = none ↔ e ∉ l := by
  rw [List.findIdx?_eq_none_iff]
  constructor
  · intro h he
    exact absurd ((hp e).mpr rfl) (by rw [h e he]; decide)
  · intro h x hx
    exact Bool.eq_false_iff.mpr fun hpx => h ((hp x).mp hpx ▸ hx)

theorem storeSlot_eq_some_iff : storeSlot w code = some k ↔
    (w.directory[k]? = some (some code) ∧ ∀ j < k, w.directory[j]? ≠ some (some code)) ∨
      (some code ∉ w.directory ∧ w.directory[k]? = some none ∧ ∀ j < k, w.directory[j]? ≠ some none) := by
  have hcode (x : Option Nat) : (x == some code) = true ↔ x = some code := beq_iff_eq
  have hfree (x : Option Nat) : x.isNone = true ↔ x = none := Option.isNone_iff_eq_none
  rw [storeSlot]
  cases hfind : w.directory.findIdx? fun e => e == some code with
  | none =>
    have hnot := (findIdx?_entry_eq_none_iff hcode).mp hfind
    rw [findIdx?_eq_some_entry_iff hfree]
    constructor
    · exact fun h => .inr ⟨hnot, h⟩
    · rintro (⟨hk, -⟩ | ⟨-, h⟩)
      · exact absurd (List.mem_of_getElem? hk) hnot
      · exact h
  | some i =>
    have hi := (findIdx?_eq_some_entry_iff hcode).mp hfind
    constructor
    · exact fun h => .inl (Option.some.inj h ▸ hi)
    · rintro (h | ⟨hnot, -⟩)
      · exact hfind.symm.trans ((findIdx?_eq_some_entry_iff hcode).mpr h)
      · exact absurd (List.mem_of_getElem? hi.1) hnot

section
variable {o : Byte}

theorem exec_loadWheelEnd (h : hears s) (tag o : Byte) :
    exec (.loadWheelEnd tag [o]) s = .next (reply 0x52 tag (handleLoadWheelEnd [o] (hunt s))) :=
  congrArg Host.Outcome.next (acceptFrame_of_hears h 0x52 tag (fixedBody 1 handleLoadWheelEnd) [o])

theorem handleLoadWheelEnd_of_refused {x : Status} (h : endRefusal o.toNat s = some x) :
    handleLoadWheelEnd [o] s = (s, x.alone) := by
  have h' : endRefusal (at8 [o] 0) s = some x := h
  simp only [handleLoadWheelEnd, h']

theorem handleLoadWheelEnd_of_placed (h : endRefusal 0 s = none) :
    handleLoadWheelEnd [0] s =
      (textEnd (setStaging { s.wheel.staging with state := .empty } (placeStaged s)), .ok) := by
  have h' : endRefusal (at8 [0] 0) s = none := h
  have hstaging : (placeStaged s).wheel.staging = s.wheel.staging :=
    congrArg Prod.snd (placeStaged_directoryAndStaging s)
  simp only [handleLoadWheelEnd, h', hstaging]
  rfl

theorem handleLoadWheelEnd_of_stored (h : endRefusal 1 s = none)
    (hslot : storeSlot s.wheel s.wheel.staging.code = some k) :
    handleLoadWheelEnd [1] s =
      (textEnd (askMemory .store (storeAccess k 0 s.wheel.staging)
        (setWheel { (placeStaged s).wheel with
          store := some { slot := k, done := 0 }, staging := { s.wheel.staging with state := .storing } }
          (placeStaged s))), Status.accepted.alone) := by
  have h' : endRefusal (at8 [1] 0) s = none := h
  have hboth := placeStaged_directoryAndStaging s
  have hstaging : (placeStaged s).wheel.staging = s.wheel.staging := congrArg Prod.snd hboth
  have hdirectory : (placeStaged s).wheel.directory = s.wheel.directory := congrArg Prod.fst hboth
  have hslot' : storeSlot (placeStaged s).wheel s.wheel.staging.code = some k := by
    rw [storeSlot, hdirectory]
    exact hslot
  simp only [handleLoadWheelEnd, h', hstaging, hslot', beginStore]
  rfl

theorem endRefusal_of_option {n : Nat} (h : 1 < n) : endRefusal n s = some .badValue := if_pos h

/-- The refusals of an option that is one of the two, by the staging's state. -/
theorem endRefusal_of_state {n : Nat} (h : n ≤ 1) : endRefusal n s =
    match s.wheel.staging.state with
    | .empty => some .notOpen
    | .storing => some .busy
    | .opened =>
      if stagingComplete s.wheel.staging = false then some .badValue
      else if n = 1 then storeRefusal s
      else none :=
  (if_neg (Nat.not_lt.mpr h)).trans (by cases s.wheel.staging.state <;> rfl)

theorem storeRefusal_of_found (h : s.memory.state = .twoByte ∨ s.memory.state = .threeByte) : storeRefusal s =
    if 2 ≤ s.memory.protect then some .isProtected
    else if s.wheel.directoryState = .loading then some .notReady
    else if (storeSlot s.wheel s.wheel.staging.code).isNone then some .full
    else none := by
  rw [storeRefusal, if_neg, if_neg]
  · obtain h | h := h <;> rw [h] <;> decide
  · obtain h | h := h <;> rw [h] <;> decide

end

/-! ### LOAD-WHEEL-BEGIN and LOAD-WHEEL-PETALS -/

theorem exec_loadWheelBegin (h : hears s) (tag code pitch width under : Byte) :
    exec (.loadWheelBegin tag [code, pitch, width, under]) s =
      .next (reply 0x50 tag (handleLoadWheelBegin [code, pitch, width, under] (hunt s))) :=
  congrArg Host.Outcome.next
    (acceptFrame_of_hears h 0x50 tag (fixedBody 4 handleLoadWheelBegin) [code, pitch, width, under])

theorem exec_loadWheelPetals (h : hears s) (tag : Byte) (body : List Byte) :
    exec (.loadWheelPetals tag body) s = .next (reply 0x51 tag (handleLoadWheelPetals body (hunt s))) :=
  congrArg Host.Outcome.next (acceptFrame_of_hears h 0x51 tag handleLoadWheelPetals body)

theorem handleLoadWheelBegin_of_storing {body : List Byte} (h : s.wheel.staging.state = .storing) :
    handleLoadWheelBegin body s = (s, Status.busy.alone) := if_pos h

theorem handleLoadWheelBegin_of_bad {body : List Byte} (h : s.wheel.staging.state ≠ .storing)
    (hbad : stagingOf body = none) : handleLoadWheelBegin body s = (s, Status.badValue.alone) := by
  rw [handleLoadWheelBegin, if_neg h, hbad]

theorem handleLoadWheelBegin_of_opened {body : List Byte} {g : Staging} (h : s.wheel.staging.state ≠ .storing)
    (hg : stagingOf body = some g) : handleLoadWheelBegin body s = (setStaging g s, .ok) := by
  rw [handleLoadWheelBegin, if_neg h, hg]

theorem handleLoadWheelPetals_of_empty {body : List Byte} (h : s.wheel.staging.state = .empty) :
    handleLoadWheelPetals body s = (s, Status.notOpen.alone) := by
  rw [handleLoadWheelPetals, h]

theorem handleLoadWheelPetals_of_storing {body : List Byte} (h : s.wheel.staging.state = .storing) :
    handleLoadWheelPetals body s = (s, Status.busy.alone) := by
  rw [handleLoadWheelPetals, h]

theorem handleLoadWheelPetals_of_bad {body : List Byte} (h : s.wheel.staging.state = .opened)
    (hbad : petalRecord body = none) : handleLoadWheelPetals body s = (s, Status.badValue.alone) := by
  rw [handleLoadWheelPetals, h]
  simp only [hbad]

theorem handleLoadWheelPetals_of_record {body : List Byte} {f : Nat} {ps : List PetalEntry}
    (h : s.wheel.staging.state = .opened) (hrecord : petalRecord body = some (f, ps)) :
    handleLoadWheelPetals body s =
      (setStaging { s.wheel.staging with petals := stagePetals f ps s.wheel.staging.petals } s, .ok) := by
  unfold handleLoadWheelPetals
  split
  next hempty => exact absurd (h.symm.trans hempty) (by decide)
  next hstoring => exact absurd (h.symm.trans hstoring) (by decide)
  next =>
    split
    next hnone => rw [hrecord] at hnone; cases hnone
    next f' ps' hsome => rw [hrecord] at hsome; cases hsome; rfl

end

/-- Settles O28: the staging buffer by its states, END by its refusals, and the placing by R45's slot. -/
theorem load_wheel_requests_stage_and_take_a_record : Obligations.load_wheel_requests_stage_and_take_a_record := by
  refine ⟨?staging, ?finish, ?placing⟩
  case staging =>
    intro tag s hheard h g begins loads staged
    have hbegins {code pitch width under : Byte} {u : State} {x : Status}
        (hu : handleLoadWheelBegin [code, pitch, width, under] h = (u, x.alone)) :
        begins [code, pitch, width, under] u x :=
      (exec_loadWheelBegin hheard tag code pitch width under).trans
        (by rw [show handleLoadWheelBegin [code, pitch, width, under] (hunt s) = _ from hu]; rfl)
    have hloads {b : List Byte} {u : State} {x : Status} (hu : handleLoadWheelPetals b h = (u, x.alone)) : loads b u x :=
      (exec_loadWheelPetals hheard tag b).trans (by rw [show handleLoadWheelPetals b (hunt s) = _ from hu]; rfl)
    refine ⟨?_, fun b hg => hloads (handleLoadWheelPetals_of_empty hg),
      fun b hg => hloads (handleLoadWheelPetals_of_storing hg),
      fun b hg hb => hloads (handleLoadWheelPetals_of_bad hg (petalRecord_of_ragged hb)), ?_⟩
    · intro code pitch width under allowed
      refine ⟨fun hg => hbegins (handleLoadWheelBegin_of_storing hg),
        fun hg hbad => hbegins (handleLoadWheelBegin_of_bad hg (stagingOf_of_not_allowed hbad)), fun hg hok => ?_⟩
      obtain ⟨p, hp, hstaging⟩ := stagingOf_of_allowed hok
      exact ⟨p, hp, hbegins (handleLoadWheelBegin_of_opened hg hstaging)⟩
    · intro f ps hg body entry allowed
      refine ⟨fun hbad => hloads (handleLoadWheelPetals_of_bad hg (petalRecord_of_not_allowed hbad)),
        fun ⟨hmin, hmax, hend, hps⟩ => ⟨stagePetals f.toNat (ps.map petalOf) g.petals,
          hloads (handleLoadWheelPetals_of_record hg (petalRecord_of_allowed hmin hmax hend hps)),
          length_stagePetals .., fun i hi => stagePetals_outside (by rwa [List.length_map]) _, fun i p hi hp => ?_⟩⟩
      exact stagePetals_within hi (by rw [List.getElem?_map, hp]; rfl)
  case finish =>
    intro tag o s hheard h g answers complete slot
    have hanswers {u : State} {x : Status} (hu : handleLoadWheelEnd [o] h = (u, x.alone)) : answers u x :=
      (exec_loadWheelEnd hheard tag o).trans (by rw [show handleLoadWheelEnd [o] (hunt s) = _ from hu]; rfl)
    have hrefused {x : Status} (hx : endRefusal o.toNat h = some x) : answers h x :=
      hanswers (handleLoadWheelEnd_of_refused hx)
    have hcomplete : stagingComplete g = true ↔ complete := stagingComplete_iff
    have hstate (ho : o.toNat ≤ 1) {x : StagingState} (hg : g.state = x) : endRefusal o.toNat h =
        match x with
        | .empty => some .notOpen
        | .storing => some .busy
        | .opened => if stagingComplete g = false then some .badValue else if o.toNat = 1 then storeRefusal h else none := by
      refine (endRefusal_of_state (s := h) ho).trans ?_
      rw [show h.wheel.staging.state = x from hg]
      cases x <;> rfl
    refine ⟨fun ho => hrefused (endRefusal_of_option ho), fun ho hg => hrefused (hstate ho hg),
      fun ho hg => hrefused (hstate ho hg), fun ho hg hbad => hrefused ?_, fun ho hg hok => ⟨placeStaged h, rfl, ?_⟩,
      fun ho hg hok => ?_⟩
    · rw [hstate ho hg]
      exact if_pos (Bool.eq_false_iff.mpr (mt hcomplete.mp hbad))
    · subst ho
      refine hanswers (handleLoadWheelEnd_of_placed (s := h) ?_)
      refine (hstate (by decide) hg).trans ((if_neg ?_).trans (if_neg (by decide)))
      exact ne_false_of_eq_true (hcomplete.mpr hok)
    · subst ho
      have hstore : endRefusal 1 h = storeRefusal h := by
        refine (hstate (by decide) hg).trans ((if_neg ?_).trans (if_pos rfl))
        exact ne_false_of_eq_true (hcomplete.mpr hok)
      refine ⟨fun habsent => hrefused (hstore.trans (if_pos habsent)),
        fun hdetecting => hrefused (hstore.trans ?_), fun hfound => ?_⟩
      · rw [storeRefusal, if_neg, if_pos (show h.memory.state = .detecting from hdetecting)]
        rw [show h.memory.state = .detecting from hdetecting]
        decide
      have hcheck := hstore.trans (storeRefusal_of_found (s := h) hfound)
      refine ⟨fun hprotect => hrefused (hcheck.trans (if_pos hprotect)),
        fun hprotect hloading => hrefused (hcheck.trans ((if_neg (Nat.not_le.mpr hprotect)).trans (if_pos hloading))),
        fun hprotect hloading => ?_⟩
      replace hcheck := hcheck.trans ((if_neg (Nat.not_le.mpr hprotect)).trans (if_neg hloading))
      refine ⟨fun hnone => hrefused (hcheck.trans (if_pos ?_)), fun k hk => ⟨placeStaged h, rfl, ?_⟩⟩
      · rw [Option.isNone_iff_eq_none, Option.eq_none_iff_forall_ne_some]
        exact fun k hk => hnone k (storeSlot_eq_some_iff.mp hk)
      · have hslot : storeSlot h.wheel h.wheel.staging.code = some k := storeSlot_eq_some_iff.mpr hk
        refine hanswers (handleLoadWheelEnd_of_stored (hcheck.trans (if_neg ?_)) hslot)
        rw [hslot]
        exact Bool.false_ne_true
  case placing =>
    intro s t slot hcache g p hother hsame hslot w placed
    have hsome (f : ProfileFetch) (hf : s.wheel.fetch = some f) (hc : f.code = g.code) : t = abandonFetch s :=
      (abandonFetch_of_abandoned (hsame f hf hc)).symm
    have hparts : ∃ fetch cache m,
        t = { s with wheel := { s.wheel with fetch := fetch, cache := cache }, memory := m } ∧ cache.length = 2 := by
      by_cases hf : ∃ f, s.wheel.fetch = some f ∧ f.code = g.code
      · obtain ⟨f, hf, hc⟩ := hf
        obtain ⟨cache, m, heq, hlength⟩ := abandonFetch_parts s
        exact ⟨none, cache, m, (hsome f hf hc).trans heq, hlength.trans hcache⟩
      · exact ⟨s.wheel.fetch, s.wheel.cache, s.memory, hother fun f hf' hc => hf ⟨f, hf', hc⟩, hcache⟩
    obtain ⟨fetch, cache, m, ht, hlength⟩ := hparts
    have hmounted : t.wheel.mounted = s.wheel.mounted := by rw [ht]
    have hcomposer : t.composer = s.composer := by rw [ht]
    have hlt : slot < t.wheel.cache.length := by
      have hlength' : t.wheel.cache.length = 2 := by rw [ht]; exact hlength
      have hbound := hslot.1
      omega
    have hplaced : placeProfile p w = placed := placeProfile_of_slotFor hslot hlt
    have hcases : placeStaged s =
        if g.code = s.wheel.mounted then raiseActive 2 (setWheel (activate slot placed) (setWheel placed t))
        else setWheel placed t := by
      refine (placeStaged_eq hother hsame).trans ?_
      rw [chooseSlot_of_slotFor hslot, hmounted]
      rw [show placeProfile s.wheel.staging.profile t.wheel = placed from hplaced]
      rfl
    refine ⟨fun hne => hcases.trans (if_neg (hmounted ▸ hne)), fun heq => hcases.trans ((if_pos (hmounted ▸ heq)).trans ?_)⟩
    have hin : placed.cache[slot]? = some (some p) := List.getElem?_set_self hlt
    rw [activate_eq hin, raiseActive_of_active (activeProfile_of_slot (slot := slot) rfl hin)]
    rw [show placed.recency = touch slot w.recency from rfl, touch_touch]
    rw [setWheel_composer, setWheel_composer, ← hcomposer]
    rfl

end Sys2Proof.Machine


/-! ## The composite table and the requests of the serial memory (O29, O30) -/

namespace Sys2Proof.Machine

section

variable {s : State}

/-! ### SET-COMPOSITE (R54) -/

theorem exec_setComposite (h : hears s) (tag code base accent : Byte) :
    exec (.setComposite tag [code, base, accent]) s =
      .next (reply 0x53 tag (handleSetComposite [code, base, accent] (hunt s))) :=
  congrArg Host.Outcome.next (acceptFrame_of_hears h 0x53 tag (fixedBody 3 handleSetComposite) [code, base, accent])

theorem Composite.allowed_iff {c : Composite} : c.allowed = true ↔
    isGlyphCode c.code = true ∧ isGlyphCode c.base = true ∧ isGlyphCode c.accent = true ∧ c.base ≠ c.code ∧
      c.accent ≠ c.code := by
  simp [Composite.allowed, and_assoc]

theorem any_composite_iff {l : List Composite} {code : Byte} :
    (l.any fun e => e.code == code) = true ↔ ∃ e ∈ l, e.code = code := by
  simp

theorem putComposite_of_new {c : Composite} {l : List Composite} (h : ∀ e ∈ l, e.code ≠ c.code) :
    putComposite c l = l ++ [c] :=
  if_neg fun hany => let ⟨e, he, hc⟩ := any_composite_iff.mp hany; h e he hc

theorem putComposite_of_split {c e : Composite} {before after : List Composite} (he : e.code = c.code)
    (h : ∀ d ∈ before ++ after, d.code ≠ c.code) :
    putComposite c (before ++ e :: after) = before ++ c :: after := by
  have hkept (l : List Composite) (hl : ∀ d ∈ l, d.code ≠ c.code) :
      l.map (fun d => if d.code = c.code then c else d) = l :=
    (List.map_congr_left fun d hd => if_neg (hl d hd)).trans (List.map_id' l)
  refine (if_pos (any_composite_iff.mpr ⟨e, by simp, he⟩)).trans ?_
  rw [List.map_append, List.map_cons, hkept before fun d hd => h d (List.mem_append_left _ hd),
    hkept after fun d hd => h d (List.mem_append_right _ hd), if_pos he]

section
variable {code base accent : Byte}

theorem handleSetComposite_of_removed (h : base = 0 ∧ accent = 0) :
    handleSetComposite [code, base, accent] s =
      if isGlyphCode code then
        (judgeHead (setComposites (s.wheel.composites.filter fun e => e.code != code) s), .ok)
      else (s, Status.badValue.alone) := if_pos h

theorem handleSetComposite_of_entry (h : ¬(base = 0 ∧ accent = 0)) :
    handleSetComposite [code, base, accent] s =
      if Composite.allowed { code := code, base := base, accent := accent } = false then (s, Status.badValue.alone)
      else if (s.wheel.composites.any fun e => e.code == code) = false ∧ 32 ≤ s.wheel.composites.length then
        (s, Status.full.alone)
      else
        (judgeHead (setComposites
          (putComposite { code := code, base := base, accent := accent } s.wheel.composites) s), .ok) := if_neg h

end

/-! ### SAVE-SETTINGS and SET-PROTECT (R161, R166) -/

theorem exec_saveSettings (h : hears s) (tag : Byte) :
    exec (.saveSettings tag []) s = .next (reply 0x60 tag (handleSaveSettings [] (hunt s))) :=
  congrArg Host.Outcome.next (acceptFrame_of_hears h 0x60 tag (fixedBody 0 handleSaveSettings) [])

theorem exec_setProtect (h : hears s) (tag level : Byte) :
    exec (.setProtect tag [level]) s = .next (reply 0x61 tag (handleSetProtect [level] (hunt s))) :=
  congrArg Host.Outcome.next (acceptFrame_of_hears h 0x61 tag (fixedBody 1 handleSetProtect) [level])

/-- R158: the memory has been found. -/
def memoryIsFound (s : State) : Prop := s.memory.state = .twoByte ∨ s.memory.state = .threeByte

theorem memoryIsFound.not_absent (h : memoryIsFound s) : s.memory.state ≠ .absent := by
  obtain h | h := h <;> rw [h] <;> decide

theorem memoryIsFound.not_detecting (h : memoryIsFound s) : s.memory.state ≠ .detecting := by
  obtain h | h := h <;> rw [h] <;> decide

theorem not_absent_of_detecting (h : s.memory.state = .detecting) : s.memory.state ≠ .absent := by
  rw [h]
  decide

theorem handleSaveSettings_of_absent (h : s.memory.state = .absent) :
    handleSaveSettings [] s = (s, Status.noMemory.alone) := if_pos h

theorem handleSaveSettings_of_detecting (h : s.memory.state = .detecting) :
    handleSaveSettings [] s = (s, Status.notReady.alone) :=
  (if_neg (not_absent_of_detecting h)).trans (if_pos h)

theorem handleSaveSettings_of_found (h : memoryIsFound s) : handleSaveSettings [] s =
    if s.memory.save.isSome then (s, Status.busy.alone)
    else if 3 ≤ s.memory.protect then (s, Status.isProtected.alone)
    else (beginSave s, Status.accepted.alone) :=
  (if_neg h.not_absent).trans (if_neg h.not_detecting)

section
variable {level : Byte}

theorem handleSetProtect_of_bad (h : 4 ≤ level.toNat) :
    handleSetProtect [level] s = (s, Status.badValue.alone) := if_pos h

theorem handleSetProtect_of_absent (hlevel : level.toNat ≤ 3) (h : s.memory.state = .absent) :
    handleSetProtect [level] s = (s, Status.noMemory.alone) :=
  (if_neg (Nat.not_lt.mpr hlevel)).trans (if_pos h)

theorem handleSetProtect_of_detecting (hlevel : level.toNat ≤ 3) (h : s.memory.state = .detecting) :
    handleSetProtect [level] s = (s, Status.notReady.alone) :=
  (if_neg (Nat.not_lt.mpr hlevel)).trans ((if_neg (not_absent_of_detecting h)).trans (if_pos h))

theorem handleSetProtect_of_found (hlevel : level.toNat ≤ 3) (h : memoryIsFound s) : handleSetProtect [level] s =
    if s.memory.protectChange.isSome then (s, Status.busy.alone)
    else if level.toNat < s.memory.protect ∧ s.pins.allow = false then (s, Status.isProtected.alone)
    else if level.toNat = s.memory.protect then (s, .ok)
    else (beginProtect level.toNat s, Status.accepted.alone) :=
  (if_neg (Nat.not_lt.mpr hlevel)).trans ((if_neg h.not_absent).trans (if_neg h.not_detecting))

end

/-! ### The dictionary download (R162 to R164) -/

theorem exec_dictOpen (h : hears s) (tag : Byte) :
    exec (.dictOpen tag []) s = .next (reply 0x62 tag (handleDictOpen [] (hunt s))) :=
  congrArg Host.Outcome.next (acceptFrame_of_hears h 0x62 tag (fixedBody 0 handleDictOpen) [])

theorem exec_dictWrite (h : hears s) (tag : Byte) (body : List Byte) :
    exec (.dictWrite tag body) s = .next (reply 0x63 tag (fixedBody 35 handleDictWrite body (hunt s))) :=
  congrArg Host.Outcome.next (acceptFrame_of_hears h 0x63 tag (fixedBody 35 handleDictWrite) body)

theorem exec_dictClose (h : hears s) (tag : Byte) :
    exec (.dictClose tag []) s = .next (reply 0x64 tag (handleDictClose [] (hunt s))) :=
  congrArg Host.Outcome.next (acceptFrame_of_hears h 0x64 tag (fixedBody 0 handleDictClose) [])

theorem handleDictOpen_of_absent (h : s.memory.state = .absent) :
    handleDictOpen [] s = (s, Status.noMemory.alone) := if_pos h

theorem handleDictOpen_of_detecting (h : s.memory.state = .detecting) :
    handleDictOpen [] s = (s, Status.notReady.alone) :=
  (if_neg (not_absent_of_detecting h)).trans (if_pos h)

theorem handleDictOpen_of_found (h : memoryIsFound s) : handleDictOpen [] s =
    if s.memory.dictClose then (s, Status.busy.alone)
    else if s.memory.protect ≠ 0 then (s, Status.isProtected.alone)
    else if s.memory.downloadOpen then (s, .ok)
    else (textEnd (openDownload s), .ok) :=
  (if_neg h.not_absent).trans (if_neg h.not_detecting)

/-- The memory with its download open, the Spelling Unit told. -/
def downloadOpened (x : SpellingUnit) (s : State) : State :=
  { s with memory := { s.memory with downloadOpen := true }, spelling := { x with status := .download } }

theorem openDownload_of_starting (h : s.spelling.unit = .starting) :
    openDownload s = downloadOpened s.spelling s := if_pos h

theorem openDownload_of_started (h : s.spelling.unit ≠ .starting) :
    openDownload s = releaseAdvance (becomeUnavailable 2 (downloadOpened s.spelling s)) := if_neg h

theorem becomeUnavailable_of_unavailable {reason : Nat} (h : s.spelling.unit = .unavailable) :
    becomeUnavailable reason s = s := if_pos h

/-- A word that waits for a lookup, or is looked up, is skipped. -/
def skipOneWaiting (reason : Option SkipReason) (w : Word) : Word :=
  if w.state = .queued ∨ w.state = .checking then { w with state := .skipped, skip := reason } else w

/-- R140: the unit becomes UNAVAILABLE. -/
theorem becomeUnavailable_of_other {reason : Nat} (h : s.spelling.unit ≠ .unavailable) :
    becomeUnavailable reason s = raise .spell 5 [2, byte reason] (withdrawUser .lookup
      { s with spelling := { s.spelling with
          unit := .unavailable, checkQueue := [], lookup := none
          words := s.spelling.words.map (skipOneWaiting (some .unavailable)) } }) := if_neg h

theorem handleDictWrite_of_absent {body : List Byte} (h : s.memory.state = .absent) :
    handleDictWrite body s = (s, Status.noMemory.alone) := if_pos h

theorem handleDictWrite_of_closed {body : List Byte} (h : s.memory.state ≠ .absent)
    (hopen : s.memory.downloadOpen = false) : handleDictWrite body s = (s, Status.notOpen.alone) :=
  (if_neg h).trans (if_pos hopen)

theorem handleDictWrite_of_open {body : List Byte} (h : s.memory.state ≠ .absent)
    (hopen : s.memory.downloadOpen = true) : handleDictWrite body s =
      if s.memory.dictWrite.isSome then (s, Status.busy.alone)
      else if dictBodyFits body s = false then (s, Status.badValue.alone)
      else if s.memory.protect ≠ 0 then (s, Status.isProtected.alone)
      else (beginDictWrite body s, Status.accepted.alone) :=
  (if_neg h).trans (if_neg (ne_false_of_eq_true hopen))

theorem handleDictClose_of_absent (h : s.memory.state = .absent) :
    handleDictClose [] s = (s, Status.noMemory.alone) := if_pos h

theorem handleDictClose_of_closed (h : s.memory.state ≠ .absent) (hopen : s.memory.downloadOpen = false) :
    handleDictClose [] s = (s, Status.notOpen.alone) := (if_neg h).trans (if_pos hopen)

theorem handleDictClose_of_open (h : s.memory.state ≠ .absent) (hopen : s.memory.downloadOpen = true) :
    handleDictClose [] s =
      if s.memory.dictWrite.isSome then (s, Status.busy.alone) else (closeDownload s, Status.accepted.alone) :=
  (if_neg h).trans (if_neg (ne_false_of_eq_true hopen))

theorem dictBodyFits_iff {body : List Byte} : dictBodyFits body s = true ↔
    dictOffset body % 4 = 0 ∧ 0x3000 + dictOffset body + 32 ≤ endOfMemory s.memory.sizeCode := by
  rw [dictBodyFits, Bool.and_eq_true, beq_iff_eq, decide_eq_true_iff]
  rfl

end

/-- Settles O29: removal, refusal, and an entry replaced or added. -/
theorem set_composite_request_keeps_the_table : Obligations.set_composite_request_keeps_the_table := by
  intro tag code base accent s hheard h l answers table removes glyphs new
  have hanswers {u : State} {x : Status} (hu : handleSetComposite [code, base, accent] h = (u, x.alone)) :
      answers u x :=
    (exec_setComposite hheard tag code base accent).trans
      (by rw [show handleSetComposite [code, base, accent] (hunt s) = _ from hu]; rfl)
  have hglyphs : new.allowed = true ↔ glyphs := Composite.allowed_iff
  refine ⟨fun hremoves hcode => hanswers ?_, fun hremoves hcode => hanswers ?_,
    fun hkeeps hbad => hanswers ?_, fun hkeeps hok => ?_⟩
  · rw [handleSetComposite_of_removed hremoves, if_neg (Bool.eq_false_iff.mp hcode)]
  · rw [handleSetComposite_of_removed hremoves, if_pos hcode]
    rfl
  · rw [handleSetComposite_of_entry hkeeps, if_pos (Bool.eq_false_iff.mpr (mt hglyphs.mp hbad))]
  have hentry := (handleSetComposite_of_entry (s := h) (code := code) hkeeps).trans
    (if_neg (ne_false_of_eq_true (hglyphs.mpr hok)))
  have hnone (hnew : ∀ e ∈ l, e.code ≠ code) : (l.any fun e => e.code == code) = false :=
    Bool.eq_false_iff.mpr fun hany => let ⟨e, he, hc⟩ := any_composite_iff.mp hany; hnew e he hc
  refine ⟨fun hnew hfull => hanswers (hentry.trans (if_pos ⟨hnone hnew, hfull⟩)), fun hnew hroom => hanswers ?_,
    fun before e after hl he hrest => hanswers ?_⟩
  · have hput : putComposite new h.wheel.composites = l ++ [new] := putComposite_of_new hnew
    rw [hentry, if_neg fun hfull => absurd hfull.2 (Nat.not_le.mpr hroom)]
    exact congrArg (fun x => (judgeHead (setComposites x h), Answer.ok)) hput
  · have hany : (l.any fun e => e.code == code) = true := any_composite_iff.mpr ⟨e, by rw [hl]; simp, he⟩
    have hput : putComposite new h.wheel.composites = before ++ new :: after := by
      rw [show h.wheel.composites = _ from hl, putComposite_of_split (c := new) he hrest]
    rw [hentry, if_neg fun hfull => absurd hany (Bool.eq_false_iff.mp hfull.1)]
    exact congrArg (fun x => (judgeHead (setComposites x h), Answer.ok)) hput

/-- Settles O30: each request by its checks in their order. -/
theorem memory_requests_are_judged_and_begin : Obligations.memory_requests_are_judged_and_begin := by
  refine ⟨?settings, ?dictionary⟩
  case settings =>
    intro tag s hheard h m saves
    have hsaves {u : State} {x : Status} (hu : handleSaveSettings [] h = (u, x.alone)) : saves u x :=
      (exec_saveSettings hheard tag).trans (by rw [show handleSaveSettings [] (hunt s) = _ from hu]; rfl)
    refine ⟨fun hm => hsaves (handleSaveSettings_of_absent hm), fun hm => hsaves (handleSaveSettings_of_detecting hm),
      fun hfound => ?_, ?_⟩
    · have hcheck := handleSaveSettings_of_found (s := h) hfound
      refine ⟨fun hsave => hsaves (hcheck.trans (if_pos (Option.isSome_iff_ne_none.mpr hsave))),
        fun hsave hprotect => hsaves (hcheck.trans ((if_neg ?_).trans (if_pos hprotect))),
        fun hsave hprotect => ⟨_, rfl, hsaves (hcheck.trans ((if_neg ?_).trans
          ((if_neg (Nat.not_le.mpr hprotect)).trans rfl)))⟩⟩
      all_goals exact fun hsome => Option.isSome_iff_ne_none.mp hsome hsave
    · intro level sets
      have hsets {u : State} {x : Status} (hu : handleSetProtect [level] h = (u, x.alone)) : sets u x :=
        (exec_setProtect hheard tag level).trans (by rw [show handleSetProtect [level] (hunt s) = _ from hu]; rfl)
      refine ⟨fun hl => hsets (handleSetProtect_of_bad hl), fun hl hm => hsets (handleSetProtect_of_absent hl hm),
        fun hl hm => hsets (handleSetProtect_of_detecting hl hm), fun hl hfound => ?_⟩
      have hcheck := handleSetProtect_of_found (s := h) hl hfound
      refine ⟨fun hc => hsets (hcheck.trans (if_pos (Option.isSome_iff_ne_none.mpr hc))), fun hc => ?_⟩
      replace hcheck := hcheck.trans (if_neg fun hsome => Option.isSome_iff_ne_none.mp hsome hc)
      refine ⟨fun hlt hallow => hsets (hcheck.trans (if_pos ⟨hlt, hallow⟩)), fun heq => hsets (hcheck.trans ?_),
        fun hchange => hsets (hcheck.trans ?_)⟩
      · exact (if_neg fun hlt => absurd heq (Nat.ne_of_lt hlt.1)).trans (if_pos heq)
      · obtain hlt | ⟨hlt, hallow⟩ := hchange
        · exact (if_neg fun hlow => absurd hlow.1 (Nat.lt_asymm hlt)).trans (if_neg (Nat.ne_of_gt hlt))
        · exact (if_neg fun hlow => absurd (hlow.2.symm.trans hallow) (by decide)).trans (if_neg (Nat.ne_of_lt hlt))
  case dictionary =>
    intro tag s hheard h m found opens closes
    have hopens {u : State} {x : Status} (hu : handleDictOpen [] h = (u, x.alone)) : opens u x :=
      (exec_dictOpen hheard tag).trans (by rw [show handleDictOpen [] (hunt s) = _ from hu]; rfl)
    have hcloses {u : State} {x : Status} (hu : handleDictClose [] h = (u, x.alone)) : closes u x :=
      (exec_dictClose hheard tag).trans (by rw [show handleDictClose [] (hunt s) = _ from hu]; rfl)
    have hcheck (hf : found) := handleDictOpen_of_found (s := h) hf
    refine ⟨fun hm => hopens (handleDictOpen_of_absent hm), fun hm => hopens (handleDictOpen_of_detecting hm),
      fun hf hc => hopens ((hcheck hf).trans (if_pos hc)),
      fun hf hc hp => hopens ((hcheck hf).trans ((if_neg (Bool.eq_false_iff.mp hc)).trans (if_pos hp))),
      fun hf hc hp ho => hopens ((hcheck hf).trans ((if_neg (Bool.eq_false_iff.mp hc)).trans
        ((if_neg (not_not.mpr hp)).trans (if_pos ho)))), ?_, ?_,
      fun hm => hcloses (handleDictClose_of_absent hm), fun hm ho => hcloses (handleDictClose_of_closed hm ho),
      fun hm ho hw => hcloses ((handleDictClose_of_open (s := h) hm ho).trans
        (if_pos (Option.isSome_iff_ne_none.mpr hw))),
      fun hm ho hw => hcloses ((handleDictClose_of_open (s := h) hm ho).trans
        (if_neg fun hsome => Option.isSome_iff_ne_none.mp hsome hw))⟩
    · intro hf hc hp ho opened
      have hopened : handleDictOpen [] h = (textEnd (openDownload h), .ok) :=
        (hcheck hf).trans ((if_neg (Bool.eq_false_iff.mp hc)).trans
          ((if_neg (not_not.mpr hp)).trans (if_neg (Bool.eq_false_iff.mp ho))))
      refine ⟨fun hu => hopens ?_, fun hu => hopens ?_, fun hu => hopens ?_⟩
      · rw [hopened, openDownload_of_starting (s := h) hu]
        rfl
      · rw [hopened, openDownload_of_started (s := h) (by rw [show h.spelling.unit = .unavailable from hu]; decide),
          becomeUnavailable_of_unavailable (s := downloadOpened h.spelling h) hu]
        rfl
      · rw [hopened, openDownload_of_started (s := h) (by rw [show h.spelling.unit = .available from hu]; decide),
          becomeUnavailable_of_other (s := downloadOpened h.spelling h)
            (by rw [show (downloadOpened h.spelling h).spelling.unit = .available from hu]; decide)]
        rfl
    · intro a b c data offset writes fits
      have hexec := exec_dictWrite hheard tag ([a, b, c] ++ data)
      have hlength (hd : data.length = 32) : ([a, b, c] ++ data).length = 35 := by simp [hd]
      have hwrites (hd : data.length = 32) {u : State} {x : Status}
          (hu : handleDictWrite ([a, b, c] ++ data) h = (u, x.alone)) : writes u x := by
        rw [fixedBody_of_length (hunt s) (hlength hd) handleDictWrite, show handleDictWrite ([a, b, c] ++ data) (hunt s) = _ from hu] at hexec
        exact hexec
      have hoffset : dictOffset ([a, b, c] ++ data) = offset := by
        show a.toNat * 65536 + b.toNat * 256 + c.toNat = 65536 * a.toNat + 256 * b.toNat + c.toNat
        omega
      have hfits : dictBodyFits ([a, b, c] ++ data) h = true ↔ fits := by
        rw [dictBodyFits_iff, hoffset]
        rfl
      refine ⟨fun hd => ?_, fun hd hm => hwrites hd (handleDictWrite_of_absent hm),
        fun hd hm ho => hwrites hd (handleDictWrite_of_closed hm ho), fun hd hm ho hw => hwrites hd
          ((handleDictWrite_of_open (s := h) hm ho).trans (if_pos (Option.isSome_iff_ne_none.mpr hw))),
        fun hd hm ho hw => ?_⟩
      · rw [fixedBody_of_length_ne (hunt s) (by simp; omega) handleDictWrite] at hexec
        exact hexec
      have hbody := (handleDictWrite_of_open (s := h) (body := [a, b, c] ++ data) hm ho).trans
        (if_neg fun hsome => Option.isSome_iff_ne_none.mp hsome hw)
      refine ⟨fun hbad => hwrites hd (hbody.trans (if_pos (Bool.eq_false_iff.mpr (mt hfits.mp hbad)))),
        fun hok hp => hwrites hd (hbody.trans ((if_neg (ne_false_of_eq_true (hfits.mpr hok))).trans (if_pos hp))),
        fun hok hp => hwrites hd (hbody.trans ((if_neg (ne_false_of_eq_true (hfits.mpr hok))).trans
          ((if_neg (not_not.mpr hp)).trans ?_)))⟩
      rw [beginDictWrite, hoffset]
      rfl

end Sys2Proof.Machine


/-! ## The arbiter and the ends of transactions (O31, O32) -/

namespace Sys2Proof.Machine

section

variable {s : State}

/-! ### The arbiter (R159, R160) -/

theorem isCovered_iff {level a : Nat} : isCovered level a = true ↔
    (level = 1 ∧ 0x3000 ≤ a) ∨ (level = 2 ∧ 0x1200 ≤ a) ∨ 3 ≤ level := by
  match level with
  | 0 => simp [isCovered]
  | 1 => simp [isCovered]
  | 2 => simp [isCovered]
  | n + 3 => simp [isCovered]

theorem isRefused_iff {level : Nat} {r : Request} : r.isRefused level = true ↔
    ∃ a d, r.access = .write a d ∧ ((level = 1 ∧ 0x3000 ≤ a) ∨ (level = 2 ∧ 0x1200 ≤ a) ∨ 3 ≤ level) := by
  unfold Request.isRefused
  split
  next a d h => rw [h, isCovered_iff]; simp
  next h => exact iff_of_false (by simp) fun ⟨a, d, ha, _⟩ => h a d ha

theorem free_iff {m : MemoryController} :
    m.free = true ↔ m.current = none ∧ m.busy = false ∧ m.detection = .none := by
  simp [MemoryController.free, MemoryController.detecting, and_assoc]

theorem grantWithin_of_not_free (h : ¬s.memory.free = true) (n : Nat) : grantWithin n s = s := by
  cases n with
  | zero => rfl
  | succ n => exact if_neg h

theorem grant_of_none (h : s.memory.next = none) : grant s = s := by
  rw [grant]
  cases s.memory.waitingCount with
  | zero => rfl
  | succ n =>
    rw [grantWithin, h]
    split <;> rfl

theorem waitingCount_of_next {m rest : MemoryController} {r : Request} (h : m.next = some (r, rest)) :
    m.waitingCount = rest.waitingCount + 1 := by
  unfold MemoryController.next at h
  unfold MemoryController.waitingCount
  split at h <;> cases h <;> simp_all only [List.length_cons, List.length_nil] <;> omega

theorem waitingCount_endOperation (u : User) : (endOperation u s).memory.waitingCount = s.memory.waitingCount := by
  unfold endOperation
  split
  case h_2 => split <;> rfl
  all_goals rfl

theorem raise_memory (k : ReportKind) (r : Nat) (d : List Byte) : (raise k r d s).memory = s.memory := by
  rw [raise]
  split <;> rfl

theorem waitingCount_failWrite (n : Nat) (r : Request) :
    (failWrite n r s).memory.waitingCount = s.memory.waitingCount := by
  rw [failWrite, waitingCount_endOperation, raise_memory]

/-- The arbiter's judgement of the next request, the memory being free. -/
theorem grant_of_next {r : Request} {m : MemoryController} (hfree : s.memory.free = true)
    (h : s.memory.next = some (r, m)) : grant s =
      if r.isRefused s.memory.protect then grant (failWrite 2 r { s with memory := m })
      else beginTransaction r { s with memory := m } := by
  rw [grant, waitingCount_of_next h, grantWithin, if_pos hfree, h]
  refine if_congr Iff.rfl ?_ rfl
  rw [grant, waitingCount_failWrite]

theorem next_of_level1 {m : MemoryController} {r : Request} {rest : List Request} (h : m.level1 = r :: rest) :
    m.next = some (r, { m with level1 := rest }) := by
  rw [MemoryController.next, h]

theorem next_of_level2 {m : MemoryController} {r : Request} {rest : List Request} (h1 : m.level1 = [])
    (h : m.level2 = r :: rest) : m.next = some (r, { m with level2 := rest }) := by
  rw [MemoryController.next, h1, h]

theorem next_of_level3 {m : MemoryController} {r : Request} {rest : List Request} (h1 : m.level1 = [])
    (h2 : m.level2 = []) (h : m.level3 = r :: rest) : m.next = some (r, { m with level3 := rest }) := by
  rw [MemoryController.next, h1, h2, h]

theorem next_of_level4 {m : MemoryController} {r : Request} {rest : List Request} (h1 : m.level1 = [])
    (h2 : m.level2 = []) (h3 : m.level3 = []) (h : m.level4 = r :: rest) :
    m.next = some (r, { m with level4 := rest }) := by
  rw [MemoryController.next, h1, h2, h3, h]

theorem next_of_empty {m : MemoryController} (h1 : m.level1 = []) (h2 : m.level2 = []) (h3 : m.level3 = [])
    (h4 : m.level4 = []) : m.next = none := by
  rw [MemoryController.next, h1, h2, h3, h4]

/-! ### What the memory holds, through an event (R158) -/

/-- The memory's bytes, its protect field and its width stand. -/
def ChipStands (s t : State) : Prop := (besideText t).chip = (besideText s).chip

namespace ChipStands

theorem refl (s : State) : ChipStands s s := rfl

theorem trans {s t u : State} (h : ChipStands s t) (g : ChipStands t u) : ChipStands s u := Eq.trans g h

theorem after {s t u : State} (g : ChipStands t u) (h : ChipStands s t) : ChipStands s u := h.trans g

theorem of_chip {s t : State} (h : t.chip = s.chip) : ChipStands s t := by
  simp only [ChipStands, besideText, h]

theorem of_besideText {s t : State} (h : besideText t = besideText s) : ChipStands s t := by
  rw [ChipStands, h]

theorem cells {s t : State} (h : ChipStands s t) : t.chip.cells = s.chip.cells :=
  show (besideText t).chip.cells = (besideText s).chip.cells from congrArg Chip.cells h

theorem protectField {s t : State} (h : ChipStands s t) : t.chip.protectField = s.chip.protectField :=
  show (besideText t).chip.protectField = (besideText s).chip.protectField from congrArg Chip.protectField h

end ChipStands

section
variable (s : State)

theorem raise_chip (k : ReportKind) (r : Nat) (d : List Byte) : (raise k r d s).chip = s.chip := by
  rw [raise]
  split <;> rfl

theorem releaseAdvance_chip : (releaseAdvance s).chip = s.chip := by
  obtain ⟨l, hl⟩ := releaseAdvance_parts s
  rw [hl]

theorem becomeAvailable_chip : (becomeAvailable s).chip = s.chip := by
  rw [becomeAvailable]
  split
  · rfl
  · exact raise_chip ..

theorem becomeUnavailable_chip (n : Nat) : (becomeUnavailable n s).chip = s.chip := by
  rw [becomeUnavailable]
  split
  · rfl
  · exact raise_chip ..

theorem raiseActive_chip (n : Nat) : (raiseActive n s).chip = s.chip := by
  rw [raiseActive]
  split
  · rfl
  · exact raise_chip ..

theorem awaitRecords_chip (n : Nat) : (awaitRecords n s).chip = s.chip := raise_chip ..

theorem searchFetch_chip : (searchFetch s).chip = s.chip := by
  unfold searchFetch
  split
  next =>
    split
    · rfl
    · split
      · exact awaitRecords_chip ..
      · rfl
  next => rfl

theorem directoryReadEnd_chip (d : List Byte) : (directoryReadEnd d s).chip = s.chip := by
  simp only [directoryReadEnd]
  split
  · exact searchFetch_chip _
  · rfl

theorem fetchReadEnd_chip (d : List Byte) : (fetchReadEnd d s).chip = s.chip := by
  unfold fetchReadEnd
  split
  next =>
    dsimp only
    split
    · rfl
    · split
      · exact raiseActive_chip ..
      · exact (awaitRecords_chip ..).trans (raise_chip ..)
  next => rfl

theorem headerReadEnd_chip (d : List Byte) : (headerReadEnd d s).chip = s.chip := by
  have hheader : (headerRead d s).chip = s.chip := by
    rw [headerRead]
    split <;> rfl
  exact hheader

theorem indexLoaded_chip : (indexLoaded s).chip = s.chip := by
  simp only [indexLoaded]
  split
  · exact becomeAvailable_chip _
  all_goals exact (releaseAdvance_chip _).trans (becomeUnavailable_chip ..)

theorem indexReadEnd_chip (d : List Byte) : (indexReadEnd d s).chip = s.chip := by
  unfold indexReadEnd
  split
  next =>
    dsimp only
    split
    · rfl
    · split
      · rfl
      · exact indexLoaded_chip _
  next => rfl

theorem closeReadEnd_chip (d : List Byte) : (closeReadEnd d s).chip = s.chip := by
  simp only [closeReadEnd]
  split
  · refine (raise_chip ..).trans ?_
    split
    · rfl
    · exact becomeAvailable_chip _
  · exact raise_chip ..

theorem endUserOp_chip (n : Nat) : (endUserOp n s).chip = s.chip := by
  rw [endUserOp]
  split
  · rfl
  · exact raise_chip ..

theorem compareUserWords_chip (k : Nat) : (compareUserWords k s).chip = s.chip := by
  unfold compareUserWords
  split
  · rfl
  · split
    · rfl
    · split
      · exact endUserOp_chip ..
      · split
        · exact endUserOp_chip ..
        · rfl

theorem userReadEnd_chip (d : List Byte) : (userReadEnd d s).chip = s.chip := by
  unfold userReadEnd
  split
  next =>
    dsimp only
    split
    · rfl
    · split
      · split
        · exact endUserOp_chip ..
        · rfl
      · exact compareUserWords_chip ..
  next => rfl

theorem chipStands_searchUserWords (k : Nat) : ChipStands s (searchUserWords k s) := .of_besideText (by simp)

theorem chipStands_askDictionary (l : Lookup) (o : Nat) : ChipStands s (askDictionary l o s) :=
  .of_besideText (by simp)

theorem chipStands_applyResult (good : Bool) : ChipStands s (applyResult good s) := .of_besideText (by simp)

theorem chipStands_lookupReadEnd (d : List Byte) : ChipStands s (lookupReadEnd d s) := by
  unfold lookupReadEnd
  split
  · exact .refl s
  · split
    · exact chipStands_askDictionary ..
    · simp only [bucketKnown]
      split
      · exact chipStands_searchUserWords ..
      · exact chipStands_askDictionary ..
    · dsimp only
      split
      · exact chipStands_applyResult ..
      · exact chipStands_searchUserWords ..
      · exact chipStands_askDictionary ..
    · dsimp only
      split
      · exact .of_chip rfl
      · split
        · exact chipStands_applyResult ..
        · exact chipStands_searchUserWords ..

theorem chipStands_readEnd (u : User) (d : List Byte) : ChipStands s (readEnd u d s) := by
  cases u
  case directory => exact .of_chip (directoryReadEnd_chip ..)
  case fetch => exact .of_chip (fetchReadEnd_chip ..)
  case dictHeader => exact .of_chip (headerReadEnd_chip ..)
  case indexLoad => exact .of_chip (indexReadEnd_chip ..)
  case lookup => exact chipStands_lookupReadEnd ..
  case userWord => exact .of_chip (userReadEnd_chip ..)
  case dictClose => exact .of_chip (closeReadEnd_chip ..)
  all_goals exact .refl s

theorem storeWriteEnd_chip : (storeWriteEnd s).chip = s.chip := by
  unfold storeWriteEnd
  split
  · rfl
  · dsimp only
    split
    · exact raise_chip ..
    · rfl

theorem saveWriteEnd_chip : (saveWriteEnd s).chip = s.chip := by
  unfold saveWriteEnd
  split
  · rfl
  · dsimp only
    split
    · exact raise_chip ..
    · rfl

theorem dictWriteEnd_chip : (dictWriteEnd s).chip = s.chip := by
  unfold dictWriteEnd
  split
  · rfl
  · dsimp only
    split
    · exact raise_chip ..
    · rfl

theorem protectWriteEnd_chip : (protectWriteEnd s).chip = s.chip := by
  unfold protectWriteEnd
  split
  · rfl
  · exact raise_chip ..

theorem userWriteEnd_chip : (userWriteEnd s).chip = s.chip := by
  unfold userWriteEnd
  split
  · split
    · rfl
    · exact endUserOp_chip ..
  · exact endUserOp_chip ..
  · rfl

theorem writeEnd_chip (u : User) : (writeEnd u s).chip = s.chip := by
  cases u
  case store => exact storeWriteEnd_chip s
  case settings => exact saveWriteEnd_chip s
  case userWord => exact userWriteEnd_chip s
  case dictWrite => exact dictWriteEnd_chip s
  case protect => exact protectWriteEnd_chip s
  all_goals rfl

theorem chooseFrame_chip : (chooseFrame s).chip = s.chip := by
  obtain ⟨h, -⟩ | ⟨r, rs, -, -, -, h⟩ | ⟨e, es, -, -, -, -, -, h⟩ := chooseFrame_cases s <;> rw [h] <;> rfl

theorem chipStands_textEvent : ChipStands s (textEvent s) :=
  (ChipStands.of_chip (chooseFrame_chip _)).after (.of_besideText (by simp [textEnd]))

end

/-! ### Transactions that end or fail (R158) -/

/-- The state in which a transaction has ended. -/
def transactionOver (a : Access) (s : State) : State :=
  { s with chip := s.chip.ended a, memory := { s.memory with current := none } }

theorem endTransaction_of_given_up {t : Transaction} (h : t.live = false) :
    endTransaction t s = transactionOver t.request.access s := by
  simp only [endTransaction, h]
  rfl

theorem endTransaction_of_read {t : Transaction} {a : Nat} (h : t.live = true) (ha : t.request.access = .read a) :
    endTransaction t s =
      readEnd t.request.user (s.chip.read4 s.memory.state.width a) (transactionOver t.request.access s) := by
  simp only [endTransaction, h, ha]
  rfl

theorem endTransaction_of_write {t : Transaction} (h : t.live = true) (ha : t.request.access.isWrite = true) :
    endTransaction t s = writeEnd t.request.user (transactionOver t.request.access s) := by
  simp only [endTransaction, h, ha, if_true]
  rfl

theorem chipStands_endTransaction (t : Transaction) :
    ChipStands (transactionOver t.request.access s) (endTransaction t s) := by
  cases hl : t.live with
  | false => rw [endTransaction_of_given_up hl]; exact .refl _
  | true =>
    cases ha : t.request.access with
    | read a => rw [endTransaction_of_read hl ha, ha]; exact chipStands_readEnd ..
    | write a d => rw [endTransaction_of_write hl (by rw [ha]; rfl), ha]; exact .of_chip (writeEnd_chip ..)
    | statusWrite n => rw [endTransaction_of_write hl (by rw [ha]; rfl), ha]; exact .of_chip (writeEnd_chip ..)

theorem exec_transactionEnd_of_current {t : Transaction} (hdetection : s.memory.detection = .none)
    (ht : s.memory.current = some t) (hwithin : transactionWithin s = true) :
    exec .transactionEnd s = .next (textEvent (endTransaction t s)) := by
  have hdetecting : s.memory.detecting = false := by rw [MemoryController.detecting, hdetection]; rfl
  rw [transactionWithin, ht] at hwithin
  show execTransactionEnd s = _
  rw [execTransactionEnd, hdetecting, if_neg Bool.false_ne_true, ht]
  exact if_pos hwithin

theorem readAll_getElem? {m : Memory} {a n k : Nat} (h : k < n) : (m.readAll a n)[k]? = some (m.read (a + k)) := by
  rw [Memory.readAll, List.getElem?_map, List.getElem?_range h]
  rfl

theorem Chip.read4_getElem? {c : Chip} {w : AddressWidth} (hw : c.width = some w) (a : Nat) {k : Nat} (hk : k < 4) :
    (c.read4 w a)[k]? = some (c.cells.read (a + k)) := by
  rw [Chip.read4, if_pos hw, readAll_getElem? hk]

end

/-- Settles O31: the next request by its level, granted or refused, and what asking and withdrawing change. -/
theorem arbiter_grants_the_oldest_of_the_highest_level : Obligations.arbiter_grants_the_oldest_of_the_highest_level := by
  intro s m free begun refused granted
  have hrefused (r : Request) : r.isRefused m.protect = true ↔ refused r := isRefused_iff
  have hgranted {r : Request} {x : MemoryController} (h : m.next = some (r, x)) : granted r x := by
    refine ⟨fun hfree hr => ?_, fun hfree hr => ?_⟩
    · rw [grant_of_next (free_iff.mpr hfree) h, if_neg (mt (hrefused r).mp hr)]
      simp only [begun]
      cases ha : r.access <;> simp only [beginTransaction, Access.isWrite, ha] <;> rfl
    · rw [grant_of_next (free_iff.mpr hfree) h, if_pos ((hrefused r).mpr hr)]
      rfl
  refine ⟨fun hfree => grantWithin_of_not_free (mt free_iff.mp hfree) _,
    fun h1 h2 h3 h4 => grant_of_none (next_of_empty h1 h2 h3 h4), fun r rest h => hgranted (next_of_level1 h),
    fun r rest h1 h => hgranted (next_of_level2 h1 h), fun r rest h1 h2 h => hgranted (next_of_level3 h1 h2 h),
    fun r rest h1 h2 h3 h => hgranted (next_of_level4 h1 h2 h3 h), fun u a => ?_, fun u a d => ?_, fun u n => ?_,
    fun u => ⟨m.current.map fun t => if t.request.user = u then { t with live := false } else t, rfl, ?_, ?_⟩⟩
  · cases u <;> rfl
  · cases u <;> rfl
  · cases u <;> rfl
  · rintro t ht
    rw [ht]
    rfl
  · intro hnone
    rw [hnone]
    rfl

/-- Settles O32: what the transaction has done in the memory, which nothing of the event's rest changes. -/
theorem transactions_end_or_fail : Obligations.transactions_end_or_fail := by
  refine ⟨?ends, ?fails⟩
  case ends =>
    intro s t hdetection ht hwithin hwf c ended
    have hstands : ChipStands (transactionOver t.request.access s) (textEvent (endTransaction t s)) :=
      (chipStands_endTransaction t).trans (chipStands_textEvent _)
    refine ⟨c.ended t.request.access, endTransaction t s, exec_transactionEnd_of_current hdetection ht hwithin,
      hstands.cells, hstands.protectField, by cases t.request.access <;> rfl, fun hlive => endTransaction_of_given_up hlive,
      fun a ha => ⟨by rw [ha]; rfl, fun hlive => ?_⟩, fun a d ha => ?_, fun n ha => ?_⟩
    · exact ⟨_, endTransaction_of_read hlive ha, Chip.length_read4 .., fun k hk hw => Chip.read4_getElem? hw a hk⟩
    · rw [ha]
      refine ⟨fun hlive => (endTransaction_of_write hlive (by rw [ha]; rfl)).trans (by rw [ha]; rfl), rfl, rfl, rfl,
        fun k b hb => Memory.read_writeAll d a k hb hwf, fun n hn => Memory.read_writeAll_outside d hn _⟩
    · rw [ha]
      exact ⟨fun hlive => (endTransaction_of_write hlive (by rw [ha]; rfl)).trans (by rw [ha]; rfl), rfl⟩
  case fails =>
    intro s
    refine ⟨fun hbusy => if_pos hbusy, fun hbusy => if_neg (Bool.eq_false_iff.mp hbusy), fun t limit ht hlimit hwf => ?_,
      fun hnone => ?_⟩
    · refine ⟨s.chip.failed s.fresh t.request.access, ?_, by cases t.request.access <;> rfl, fun a d ha => ?_,
        fun n ha => by rw [ha]; exact ⟨rfl, rfl⟩⟩
      · show execWriteBusyLimit s = _
        simp only [execWriteBusyLimit, ht, hlimit]
        rfl
      · obtain ⟨hreach, hcheck⟩ := failedReach_le s.fresh a d.length
        have hlength : (d.take (failedReach s.fresh a d.length)).length = failedReach s.fresh a d.length := by
          rw [List.length_take]
          omega
        rw [ha]
        refine ⟨rfl, rfl, rfl, Memory.read_writeAll_outside _ (by omega) _, _, hreach, fun k b hk hb => ?_,
          fun n hn => Memory.read_writeAll_outside _ (by omega) _⟩
        exact Memory.read_writeAll _ a k (by rw [List.getElem?_take_of_lt hk, hb]) hwf
    · show execWriteBusyLimit s = _
      unfold execWriteBusyLimit
      split
      next t ht => rw [hnone t ht]
      next => rfl

end Sys2Proof.Machine


/-! ## The operations of the Wheel Unit and the Memory Controller, transaction by transaction (O33) -/

namespace Sys2Proof.Machine

section

variable {s : State}

/-! ### A profile in the bytes of a slot (R44, R48, R185) -/

theorem PetalEntry.ofBytes_eq_some_iff {g w c : Byte} {e : PetalEntry} : PetalEntry.ofBytes g w c = some e ↔
    e.glyph = g ∧ (e.glyph = 0 ∨ isGlyphCode e.glyph = true) ∧ e.width = w.toNat ∧ 4 ≤ e.width ∧ e.width ≤ 18 ∧
      1 ≤ e.impression ∧ e.impression ≤ 5 ∧ c.toNat = e.impression + if e.accent then 128 else 0 := by
  obtain ⟨glyph, width, impression, accent⟩ := e
  have hc := c.isLt
  simp only [PetalEntry.ofBytes, Option.ite_none_right_eq_some, Option.some.injEq, PetalEntry.mk.injEq]
  constructor
  · rintro ⟨⟨hg, hmin, hmax, h1, h5, hmiddle⟩, rfl, rfl, rfl, rfl⟩
    refine ⟨rfl, hg.imp_left fun hz => eq_iff_toNat_eq.mpr hz, rfl, hmin, hmax, h1, h5, ?_⟩
    by_cases htop : 128 ≤ c.toNat
    · rw [if_pos (decide_eq_true htop)]
      omega
    · rw [if_neg (by simp [htop])]
      omega
  · rintro ⟨rfl, hg, rfl, hmin, hmax, h1, h5, hclass⟩
    have htop : accent = decide (128 ≤ c.toNat) := by
      cases accent <;> simp at hclass ⊢ <;> omega
    have hlow : c.toNat % 8 = impression ∧ c.toNat % 128 = impression := by
      cases accent <;> simp at hclass <;> omega
    refine ⟨⟨hg.imp_left fun hz => by rw [hz]; rfl, hmin, hmax, ?_⟩, rfl, rfl, hlow.1, htop.symm⟩
    omega

theorem petalEntries_eq_some_iff {l : List Byte} {ps : List PetalEntry} : petalEntries l = some ps ↔
    l.length = 3 * ps.length ∧ ∀ i e, ps[i]? = some e →
      PetalEntry.ofBytes (l.getD (3 * i) 0) (l.getD (3 * i + 1) 0) (l.getD (3 * i + 2) 0) = some e := by
  fun_induction petalEntries l generalizing ps with
  | case1 =>
    constructor
    · rintro h
      cases h
      simp
    · rintro ⟨hlen, -⟩
      rw [List.length_nil] at hlen
      rw [List.length_eq_zero_iff.mp (show ps.length = 0 by omega)]
  | case2 g w c rest ih =>
    constructor
    · intro h
      obtain ⟨p, hp, h⟩ := Option.bind_eq_some_iff.mp h
      obtain ⟨qs, hqs, h⟩ := Option.bind_eq_some_iff.mp h
      cases h
      obtain ⟨hlen, hall⟩ := ih.mp hqs
      refine ⟨by simp only [List.length_cons]; omega, fun i e he => ?_⟩
      cases i with
      | zero => cases he; exact hp
      | succ i => exact hall i e he
    · rintro ⟨hlen, hall⟩
      cases ps with
      | nil => simp at hlen
      | cons p qs =>
        have hqs : petalEntries rest = some qs := by
          refine ih.mpr ⟨by simp only [List.length_cons] at hlen; omega, fun i e he => hall (i + 1) e he⟩
        have hp : PetalEntry.ofBytes g w c = some p := hall 0 p rfl
        rw [hp, hqs]
        rfl
  | case3 l hnil hcons =>
    refine iff_of_false (by simp) ?_
    rintro ⟨hlen, -⟩
    match l, hnil, hcons, hlen with
    | [], hnil, _, _ => exact hnil rfl
    | [_], _, _, hlen => simp at hlen; omega
    | [_, _], _, _, hlen => simp at hlen; omega
    | g :: w :: c :: rest, _, hcons, _ => exact hcons g w c rest rfl

theorem underscoreOfByte_eq_some_iff {b : Byte} {u : Option Nat} : underscoreOfByte b = some u ↔
    u = (if b = 0xFF then none else some b.toNat) ∧ ∀ n, u = some n → n ≤ 95 := by
  by_cases h : b.toNat ≤ 95 ∨ b = 0xFF
  · rw [underscoreOfByte_of_allowed h, Option.some.injEq]
    constructor
    · rintro rfl
      refine ⟨rfl, fun n hn => ?_⟩
      split at hn
      · cases hn
      · cases hn
        exact h.resolve_right ‹_›
    · exact fun hu => hu.1.symm
  · rw [underscoreOfByte_of_not_allowed h]
    refine iff_of_false (by simp) ?_
    rintro ⟨rfl, hn⟩
    rw [not_or] at h
    exact h.1 (hn b.toNat (if_neg h.2))

/-- The bytes of petal `i` in the image of a slot. -/
theorem getD_petalArea {bs : List Byte} {k : Nat} (hk : k < 288) :
    ((bs.drop 4).take 288).getD k 0 = bs.getD (4 + k) 0 := by
  rw [List.getD_eq_getElem?_getD, List.getD_eq_getElem?_getD, List.getElem?_take_of_lt hk, List.getElem?_drop]

theorem petalEntries_area_iff {bs : List Byte} {ps : List PetalEntry} (hlen : 292 ≤ bs.length) :
    petalEntries ((bs.drop 4).take 288) = some ps ↔
      ps.length = 96 ∧ ∀ i e, ps[i]? = some e →
        PetalEntry.ofBytes (bs.getD (4 + 3 * i) 0) (bs.getD (5 + 3 * i) 0) (bs.getD (6 + 3 * i) 0) = some e := by
  have harea : ((bs.drop 4).take 288).length = 288 := by
    rw [List.length_take, List.length_drop]
    omega
  rw [petalEntries_eq_some_iff, harea]
  refine (and_congr_left' (by omega)).trans (and_congr_right fun h96 => forall_congr' fun i => forall_congr' fun e =>
    imp_congr_right fun hi => ?_)
  have hlt : i < ps.length := (List.getElem?_eq_some_iff.mp hi).1
  rw [getD_petalArea (by omega), getD_petalArea (by omega), getD_petalArea (by omega),
    show 4 + (3 * i + 1) = 5 + 3 * i by omega, show 4 + (3 * i + 2) = 6 + 3 * i by omega]

/-- What `Profile.ofBytes` reads is what R44 and R48 ask of the bytes. -/
theorem Profile.ofBytes_eq_some_iff {bs : List Byte} {p : Profile} (hlen : 292 ≤ bs.length) :
    Profile.ofBytes bs = some p ↔ holdsProfile bs p := by
  obtain ⟨code, pitch, width, underscore, petals⟩ := p
  constructor
  · intro h
    obtain ⟨q, hq, h⟩ := Option.bind_eq_some_iff.mp h
    obtain ⟨u, hu, h⟩ := Option.bind_eq_some_iff.mp h
    obtain ⟨ps, hps, h⟩ := Option.bind_eq_some_iff.mp h
    obtain ⟨⟨hheader, -, hallowed⟩, h⟩ := Option.ite_none_right_eq_some.mp h
    cases h
    obtain ⟨hcode, hwidth⟩ := headerAllowed_iff.mp hheader
    obtain ⟨h96, hentries⟩ := (petalEntries_area_iff hlen).mp hps
    exact ⟨rfl, hcode.1, hcode.2, Pitch.ofCode_iff.mp hq, rfl, hwidth.1, hwidth.2,
      (underscoreOfByte_eq_some_iff.mp hu).1, h96,
      fun i e he => PetalEntry.ofBytes_eq_some_iff.mp (hentries i e he), underscoreAllowed_iff.mp hallowed⟩
  · rintro ⟨hcode, hmin, hmax, hpitch, hwidth, hnarrow, hwide, hunder, h96, hentries, hallowed⟩
    have hps := (petalEntries_area_iff hlen).mpr
      ⟨h96, fun i e he => PetalEntry.ofBytes_eq_some_iff.mpr (hentries i e he)⟩
    have hu : underscoreOfByte (bs.getD 3 0) = some underscore := by
      refine underscoreOfByte_eq_some_iff.mpr ⟨hunder, fun n hn => ?_⟩
      obtain ⟨e, he, -⟩ := hallowed n hn
      have hlt := (List.getElem?_eq_some_iff.mp he).1
      simp only at h96 hlt
      omega
    refine Option.bind_eq_some_iff.mpr ⟨pitch, Pitch.ofCode_iff.mpr hpitch, Option.bind_eq_some_iff.mpr ⟨_, hu,
      Option.bind_eq_some_iff.mpr ⟨_, hps, ?_⟩⟩⟩
    simp only at hcode hwidth hmin hmax hnarrow hwide
    have hheader : headerAllowed (at8 bs 0) (at8 bs 2) = true :=
      headerAllowed_iff.mpr ⟨⟨hmin.trans_eq hcode, hcode.symm.trans_le hmax⟩, hnarrow.trans_eq hwidth,
        hwidth.symm.trans_le hwide⟩
    rw [if_pos ⟨hheader, h96, underscoreAllowed_iff.mpr hallowed⟩, hcode, hwidth]
    rfl

/-! ### The directory and the fetch (R47, R48) -/

theorem searchFetch_of_not_waiting (h : ∀ c, s.wheel.fetch ≠ some { code := c, progress := .waitingDirectory }) :
    searchFetch s = s := by
  unfold searchFetch
  split
  next c hc => exact absurd hc (h c)
  next => rfl

/-- What R46 and R48 describe is the search of the directory. -/
theorem searchFetch_searches {c : Nat} (h : s.wheel.fetch = some { code := c, progress := .waitingDirectory })
    (hloaded : s.wheel.directoryState ≠ .loading) : fetchSearches c s (searchFetch s) := by
  have hentry (x : Option Nat) : (x == some c) = true ↔ x = some c := beq_iff_eq
  refine ⟨fun hnot => ?_, fun d slot hd hbefore hslot => ?_⟩
  · have hnone := (findIdx?_entry_eq_none_iff hentry).mpr hnot
    unfold searchFetch
    simp only [h, if_neg hloaded, hnone]
    rfl
  · have hsome := (findIdx?_eq_some_entry_iff hentry).mpr ⟨hd, hbefore⟩
    unfold searchFetch
    simp only [h, if_neg hloaded, hsome, chooseSlot_of_slotFor hslot]
    rfl

section
variable {c d slot : Nat} {before data : List Byte}
  (h : s.wheel.fetch = some { code := c, progress := .reading d slot before })
include h

theorem fetchReadEnd_of_more (hmore : (before ++ data).length < 320) : fetchReadEnd data s =
    askMemory .fetch (.read (profileSlotAddress d + (before ++ data).length)) (setWheel { s.wheel with
      fetch := some { code := c, progress := .reading d slot (before ++ data) } } s) := by
  unfold fetchReadEnd
  simp only [h, if_pos hmore]

theorem fetchReadEnd_of_profile {p : Profile} (hall : 320 ≤ (before ++ data).length)
    (hp : Profile.ofBytes (before ++ data) = some p) (hc : p.code = c) : fetchReadEnd data s =
      raiseActive 1 (setWheel (activate slot
        { s.wheel with fetch := none, cache := s.wheel.cache.set slot (some p) }) s) := by
  have hfilter : (Profile.ofBytes (before ++ data)).filter (fun p => p.code == c) = some p := by
    rw [hp]
    exact Option.filter_some_pos (beq_iff_eq.mpr hc)
  unfold fetchReadEnd
  simp only [h, if_neg (Nat.not_lt.mpr hall), hfilter]

theorem fetchReadEnd_of_bad (hall : 320 ≤ (before ++ data).length)
    (hbad : ∀ p, Profile.ofBytes (before ++ data) = some p → p.code ≠ c) : fetchReadEnd data s =
      awaitRecords c (raise .wheel 2 [byte c, byte d] (setWheel
        { s.wheel with fetch := none, cache := s.wheel.cache.set slot none } s)) := by
  have hfilter : (Profile.ofBytes (before ++ data)).filter (fun p => p.code == c) = none := by
    rw [Option.filter_eq_none_iff]
    exact fun p hp hc => hbad p hp (beq_iff_eq.mp hc)
  unfold fetchReadEnd
  simp only [h, if_neg (Nat.not_lt.mpr hall), hfilter]

end

/-! ### The glyph map (R53) -/

/-- The entry of the glyph map for a code, when a petal carries it. -/
def mapEntry (petals : List PetalEntry) (code : Byte) : Option GlyphEntry :=
  if petalsCarrying petals code = [] then none
  else some { code := code, petals := (petalsCarrying petals code).take 2 }

theorem buildMap_eq (petals : List PetalEntry) :
    buildMap petals = (List.range 255).filterMap fun k => mapEntry petals (byte (k + 1)) := by
  refine congrArg (fun f => (List.range 255).filterMap f) (funext fun k => ?_)
  rw [mapEntry]
  cases petalsCarrying petals (byte (k + 1)) <;> rfl

theorem code_of_mapEntry {petals : List PetalEntry} {code : Byte} {e : GlyphEntry}
    (h : mapEntry petals code = some e) : e.code = code := by
  rw [mapEntry] at h
  split at h
  · cases h
  · cases h
    rfl

/-- The map's entry for a code other than 0. -/
theorem find_buildMap (petals : List PetalEntry) {c : Byte} (hc : c ≠ 0) :
    (buildMap petals).find? (fun e => e.code == c) = mapEntry petals c := by
  have hpos : 1 ≤ c.toNat := Nat.one_le_iff_ne_zero.mpr fun h => hc (eq_iff_toNat_eq.mpr h)
  have hbyte : byte (c.toNat - 1 + 1) = c := by rw [Nat.sub_add_cancel hpos, byte_toNat]
  have hlt := c.isLt
  have hany (k : Nat) : ((mapEntry petals (byte (k + 1))).any fun e => e.code == c) = true ↔
      byte (k + 1) = c ∧ (mapEntry petals c).isSome := by
    rw [Option.any_eq_true]
    constructor
    · rintro ⟨e, he, hcode⟩
      have heq : byte (k + 1) = c := (code_of_mapEntry he).symm.trans (beq_iff_eq.mp hcode)
      rw [heq] at he
      exact ⟨heq, Option.isSome_iff_exists.mpr ⟨e, he⟩⟩
    · rintro ⟨heq, hsome⟩
      obtain ⟨e, he⟩ := Option.isSome_iff_exists.mp hsome
      exact ⟨e, by rw [heq, he], beq_iff_eq.mpr (code_of_mapEntry he)⟩
  rw [buildMap_eq, List.find?_filterMap]
  cases hentry : mapEntry petals c with
  | none =>
    rw [List.find?_eq_none.mpr fun k _ hk => ?_, Option.bind_none]
    rw [hany, hentry] at hk
    exact absurd hk.2 Bool.false_ne_true
  | some e =>
    have hfind : (List.range 255).find? (fun k => (mapEntry petals (byte (k + 1))).any fun e => e.code == c) =
        some (c.toNat - 1) := by
      rw [List.find?_range_eq_some]
      refine ⟨(hany _).mpr ⟨hbyte, by rw [hentry]; rfl⟩, List.mem_range.mpr (by omega), fun j hj => ?_⟩
      rw [Bool.not_eq_true', Bool.eq_false_iff, ne_eq, hany]
      rintro ⟨heq, -⟩
      have hnat := eq_iff_toNat_eq.mp heq
      rw [toNat_byte (by omega)] at hnat
      omega
    rw [hfind, Option.bind_some, hbyte, hentry]

/-! ### The store (R52) -/

section
variable {slot done : Nat} (h : s.wheel.store = some { slot := slot, done := done })
include h

theorem storeWriteEnd_of_more (hmore : done + 1 < 81) : storeWriteEnd s =
    askMemory .store (storeAccess slot (done + 1) s.wheel.staging) (setWheel { s.wheel with
      directory := if done = 0 then s.wheel.directory.set slot none else s.wheel.directory
      store := some { slot := slot, done := done + 1 } } s) := by
  simp only [storeWriteEnd, h]
  rw [if_neg (by omega)]
  split <;> rfl

theorem storeWriteEnd_of_last (hlast : 81 ≤ done + 1) : storeWriteEnd s =
    raise .memory 0 [2] { s with wheel := { s.wheel with
      directory := s.wheel.directory.set slot (some s.wheel.staging.code), store := none
      staging := { s.wheel.staging with state := .empty } } } := by
  simp only [storeWriteEnd, h]
  rw [if_pos hlast, if_neg (by omega)]
  rfl

end

/-! ### The writes of the Memory Controller (R161, R163, R166) -/

theorem saveWriteEnd_of_more {image : List Byte} {done : Nat}
    (h : s.memory.save = some { image := image, done := done }) (hmore : done + 1 < 48) : saveWriteEnd s =
      askMemory .settings (.write (0x0040 + 4 * (done + 1)) ((image.drop (4 * (done + 1))).take 4))
        { s with memory := { s.memory with save := some { image := image, done := done + 1 } } } := by
  simp only [saveWriteEnd, h]
  exact if_neg (by omega)

theorem saveWriteEnd_of_last {image : List Byte} {done : Nat}
    (h : s.memory.save = some { image := image, done := done }) (hlast : 48 ≤ done + 1) :
    saveWriteEnd s = raise .memory 0 [3] { s with memory := { s.memory with save := none } } := by
  simp only [saveWriteEnd, h]
  exact if_pos hlast

theorem protectWriteEnd_of_change {level : Nat} (h : s.memory.protectChange = some level) : protectWriteEnd s =
    raise .memory 0 [4] { s with memory := { s.memory with protect := level, protectChange := none } } := by
  simp only [protectWriteEnd, h]
  rfl

theorem dictWriteEnd_of_more {offset done : Nat} {d : List Byte}
    (h : s.memory.dictWrite = some { offset := offset, data := d, done := done }) (hmore : done + 1 < 8) :
    dictWriteEnd s =
      askMemory .dictWrite (.write (0x3000 + offset + 4 * (done + 1)) ((d.drop (4 * (done + 1))).take 4))
        { s with memory := { s.memory with
            dictWrite := some { offset := offset, data := d, done := done + 1 } } } := by
  simp only [dictWriteEnd, h]
  exact if_neg (by omega)

theorem dictWriteEnd_of_last {offset done : Nat} {d : List Byte}
    (h : s.memory.dictWrite = some { offset := offset, data := d, done := done }) (hlast : 8 ≤ done + 1) :
    dictWriteEnd s =
      raise .memory 0 ([5] ++ be24 offset) { s with memory := { s.memory with dictWrite := none } } := by
  simp only [dictWriteEnd, h]
  exact if_pos hlast

end

/-- Settles O33: each operation by what is left of it. -/
theorem wheel_and_memory_operations_advance : Obligations.wheel_and_memory_operations_advance := by
  refine ⟨?directory, ?fetch, ?map, ?store, ?memory⟩
  case directory =>
    intro s data w k b listed loaded
    have hread : readEnd .directory data s =
        if 24 ≤ k + 1 then searchFetch loaded
        else askMemory .directory (.read (0x1200 + 320 * (k + 1))) { s with wheel := listed } := rfl
    refine ⟨fun hmore => hread.trans (if_neg (by omega)), fun hlast hfetch => ?_, fun c hlast hfetch => ?_⟩
    · exact hread.trans ((if_pos hlast).trans (searchFetch_of_not_waiting hfetch))
    · rw [hread, if_pos hlast]
      exact searchFetch_searches (s := loaded) hfetch DirectoryState.noConfusion
  case fetch =>
    intro s data before c d slot w hfetch hslot bytes
    refine ⟨fun hmore => fetchReadEnd_of_more hfetch hmore, fun p hall hp hc => ?_, fun hall hbad => ⟨_, rfl, ?_⟩⟩
    · have hprofile := (Profile.ofBytes_eq_some_iff (bs := bytes) (by omega)).mpr hp
      have hin : (w.cache.set slot (some p))[slot]? = some (some p) := List.getElem?_set_self hslot
      refine (fetchReadEnd_of_profile hfetch hall hprofile hc).trans ?_
      rw [activate_eq (w := { w with fetch := none, cache := w.cache.set slot (some p) }) hin,
        raiseActive_of_active (activeProfile_of_slot (slot := slot) rfl hin)]
      rfl
    · exact fetchReadEnd_of_bad hfetch hall
        fun p hp => hbad p ((Profile.ofBytes_eq_some_iff (bs := bytes) (by omega)).mp hp)
  case map =>
    intro petals c hc carrying listed
    exact ⟨fun hnone => (find_buildMap petals hc).trans (if_pos hnone),
      fun hsome => (find_buildMap petals hc).trans (if_neg hsome)⟩
  case store =>
    intro s slot done hstore w g header image directory goes
    have hheader (code : Nat) : g.headerBytes code = header code := by
      simp only [header, Staging.headerBytes, optByte_eq]
      cases g.underscore <;> rfl
    have himage : g.image = image := by
      simp only [image, Staging.image, hheader]
      refine congrArg (fun f => header g.code ++ g.petals.flatMap f ++ List.replicate 28 0) (funext fun e => ?_)
      cases e <;> rfl
    refine ⟨fun hmore => ?_, fun h80 => ?_, fun hlast => storeWriteEnd_of_last hstore hlast, ?_⟩
    · have haccess : storeAccess slot (done + 1) g =
          .write (0x1200 + 320 * slot + 4 * (done + 1)) ((image.drop (4 * (done + 1))).take 4) := by
        rw [storeAccess, if_neg (by omega), if_pos hmore, himage]
        rfl
      exact (storeWriteEnd_of_more hstore (by omega)).trans (by rw [show s.wheel.staging = g from rfl, haccess]; rfl)
    · have haccess : storeAccess slot (done + 1) g = .write (0x1200 + 320 * slot) (header g.code) := by
        rw [storeAccess, if_neg (by omega), if_neg (by omega), hheader]
        rfl
      exact (storeWriteEnd_of_more hstore (by omega)).trans (by rw [show s.wheel.staging = g from rfl, haccess]; rfl)
    · simp only [endOperation, hstore]
      rfl
  case memory =>
    intro s m after
    exact ⟨fun image done h => ⟨saveWriteEnd_of_more h, saveWriteEnd_of_last h⟩, rfl,
      fun level h => protectWriteEnd_of_change h, rfl,
      fun offset d done h => ⟨dictWriteEnd_of_more h, dictWriteEnd_of_last h⟩, rfl⟩

end Sys2Proof.Machine


/-! ## The lookup, read by read (O34) -/

namespace Sys2Proof.Machine

section

variable {s : State} {l : Lookup}

/-! ### The bytes of a user-word slot (R132, R137) -/

theorem userSlotBytes_eq (bytes : List Byte) : userSlotBytes bytes = slotReach bytes :=
  if_congr Iff.rfl (congrArg (fun n => 4 * (n / 4)) (show at8 bytes 0 + 1 + 4 - 1 = at8 bytes 0 + 4 by omega)) rfl

theorem userSlotLetters_eq_some_iff {bytes : List Byte} {letters : List Nat} (h : slotReach bytes ≤ bytes.length) :
    userSlotLetters bytes = some letters ↔ slotHolds bytes letters := by
  have hbounds : 2 ≤ at8 bytes 0 → at8 bytes 0 ≤ 15 → at8 bytes 0 + 1 ≤ bytes.length := by
    intro hmin hmax
    have hreach : slotReach bytes = 4 * ((at8 bytes 0 + 4) / 4) := if_pos ⟨hmin, hmax⟩
    omega
  simp only [userSlotLetters, Option.ite_none_right_eq_some, Option.some.injEq, List.all_eq_true, Bool.and_eq_true,
    decide_eq_true_eq]
  have hget (n i : Nat) (hi : i < n) (hn : n + 1 ≤ bytes.length) :
      (((bytes.drop 1).take n).map BitVec.toNat)[i]? = some (bytes.getD (i + 1) 0).toNat := by
    rw [List.getElem?_map, List.getElem?_take_of_lt hi, List.getElem?_drop, Nat.add_comm 1 i,
      List.getD_eq_getElem?_getD, List.getElem?_eq_getElem (show i + 1 < bytes.length by omega)]
    rfl
  have hlength (n : Nat) (hn : n + 1 ≤ bytes.length) : (((bytes.drop 1).take n).map BitVec.toNat).length = n := by
    rw [List.length_map, List.length_take, List.length_drop]
    omega
  constructor
  · rintro ⟨⟨hmin, hmax, hall⟩, rfl⟩
    have hn := hbounds hmin hmax
    rw [slotHolds, hlength _ hn]
    refine ⟨hmin, hmax, rfl, fun i v hv => ?_⟩
    have hi : i < at8 bytes 0 := by
      have := (List.getElem?_eq_some_iff.mp hv).1
      rwa [hlength _ hn] at this
    obtain ⟨hv1, hv59⟩ := hall v (List.mem_of_getElem? hv)
    exact ⟨Option.some.inj ((hget _ i hi hn).symm.trans hv), hv1, hv59⟩
  · rintro ⟨hmin, hmax, hcount, hall⟩
    have hcount' : at8 bytes 0 = letters.length := hcount
    have hn := hbounds (by omega) (by omega)
    have heq : ((bytes.drop 1).take (at8 bytes 0)).map BitVec.toNat = letters := by
      refine List.ext_getElem? fun i => ?_
      by_cases hi : i < letters.length
      · have hv := List.getElem?_eq_getElem hi
        rw [hget _ i (by omega) hn, hv, (hall i _ hv).1]
      · rw [List.getElem?_eq_none (by rw [hlength _ hn]; omega), List.getElem?_eq_none (by omega)]
    refine ⟨⟨by omega, by omega, fun v hv => ?_⟩, heq⟩
    rw [heq] at hv
    obtain ⟨i, hi⟩ := List.getElem?_of_mem hv
    exact (hall i v hi).2

/-! ### The comparison of a bucket's entries (R131) -/

/-- The bytes of the entries of a bucket. -/
def entryBytes (entries : List (List Byte)) : List Byte := entries.flatMap fun e => byte e.length :: e

/-- How many bytes the entries of a bucket take. -/
def entryRoom (entries : List (List Byte)) : Nat := (entries.map fun e => e.length + 1).sum

theorem scanBucket_passes {letters : List Nat} {entries : List (List Byte)} {tail : List Byte} {fuel room : Nat}
    (hlen : ∀ e ∈ entries, 1 ≤ e.length ∧ e.length ≤ 24) (hother : ∀ e ∈ entries, e.map BitVec.toNat ≠ letters)
    (hroom : entryRoom entries ≤ room) :
    scanBucket letters (fuel + entries.length) room (entryBytes entries ++ tail) =
      scanBucket letters fuel (room - entryRoom entries) tail := by
  induction entries generalizing room with
  | nil => rfl
  | cons e entries ih =>
    have hsum : entryRoom (e :: entries) = e.length + 1 + entryRoom entries := rfl
    have hbytes : entryBytes (e :: entries) ++ tail = byte e.length :: (e ++ (entryBytes entries ++ tail)) := by
      simp [entryBytes]
    obtain ⟨hmin, hmax⟩ := hlen e List.mem_cons_self
    have hnat : (byte e.length).toNat = e.length := toNat_byte (by omega)
    rw [hsum] at hroom ⊢
    rw [hbytes, List.length_cons, ← Nat.add_assoc, scanBucket, if_neg (by omega)]
    simp only [hnat]
    rw [if_neg (by omega), if_neg (by simp), List.take_left, if_neg (hother e List.mem_cons_self), List.drop_left,
      ih (fun x hx => hlen x (List.mem_cons_of_mem _ hx)) (fun x hx => hother x (List.mem_cons_of_mem _ hx))
        (by omega)]
    congr 1
    omega

theorem length_le_entryRoom {entries : List (List Byte)} (hlen : ∀ e ∈ entries, 1 ≤ e.length ∧ e.length ≤ 24) :
    2 * entries.length ≤ entryRoom entries := by
  induction entries with
  | nil => exact Nat.le_refl _
  | cons e entries ih =>
    have hsum : entryRoom (e :: entries) = e.length + 1 + entryRoom entries := rfl
    have hrest := ih fun x hx => hlen x (List.mem_cons_of_mem _ hx)
    have he := (hlen e List.mem_cons_self).1
    rw [hsum, List.length_cons]
    omega

/-- The comparison of a bucket goes on behind the entries that are other words. -/
theorem scanBucket_behind {letters : List Nat} {entries : List (List Byte)} {tail : List Byte} {room : Nat}
    (hlen : ∀ e ∈ entries, 1 ≤ e.length ∧ e.length ≤ 24) (hother : ∀ e ∈ entries, e.map BitVec.toNat ≠ letters)
    (hroom : entryRoom entries ≤ room) (hmost : room ≤ 256) :
    ∃ fuel, scanBucket letters 257 room (entryBytes entries ++ tail) =
      scanBucket letters (fuel + 1) (room - entryRoom entries) tail := by
  have hcount := length_le_entryRoom hlen
  refine ⟨256 - entries.length, ?_⟩
  rw [← scanBucket_passes hlen hother hroom, show 256 - entries.length + 1 + entries.length = 257 by omega]

section
variable {letters : List Nat} {fuel room : Nat}

theorem scanBucket_of_no_room {tail : List Byte} : scanBucket letters (fuel + 1) 0 tail = .notFound := if_pos rfl

theorem scanBucket_of_no_bytes (h : 0 < room) : scanBucket letters (fuel + 1) room [] = .more :=
  if_neg (Nat.ne_of_gt h)

theorem scanBucket_of_bad {n : Byte} {rest : List Byte} (h : 0 < room)
    (hbad : n = 0 ∨ 24 < n.toNat ∨ room < 1 + n.toNat) : scanBucket letters (fuel + 1) room (n :: rest) = .notFound := by
  rw [eq_iff_toNat_eq] at hbad
  rw [scanBucket, if_neg (Nat.ne_of_gt h)]
  exact if_pos hbad

theorem scanBucket_of_fair {n : Byte} {rest : List Byte} (hmin : 1 ≤ n.toNat) (hmax : n.toNat ≤ 24)
    (hroom : 1 + n.toNat ≤ room) : scanBucket letters (fuel + 1) room (n :: rest) =
      if rest.length < n.toNat then .more
      else if (rest.take n.toNat).map BitVec.toNat = letters then .found
      else scanBucket letters fuel (room - 1 - n.toNat) (rest.drop n.toNat) := by
  rw [scanBucket, if_neg (by omega)]
  exact if_neg (by omega)

end

/-! ### The result of a lookup (R133) -/

/-- The state with a lookup under way. -/
def withLookup (l : Lookup) (s : State) : State := setSpelling { s.spelling with lookup := some l } s

theorem withLookup_self (h : s.spelling.lookup = some l) : withLookup l s = s := by
  rw [withLookup, ← h]
  rfl

/-- The state in which a lookup is over. -/
def lookupOver (s : State) : State := setSpelling { s.spelling with lookup := none } s

/-- The state in which a lookup is over and its word judged. -/
def lookupJudged (l : Lookup) (good : Bool) (s : State) : State :=
  setSpelling { s.spelling with
    lookup := none
    words := s.spelling.words.map fun w =>
      if w.id = l.word then { w with state := if good then .good else .unknown } else w } s

/-- R133: what the result of a lookup does. -/
def lookupResult (s : State) (l : Lookup) (good : Bool) (u : State) : Prop :=
  (findWord s.spelling.words l.word = none → u = lookupOver s) ∧
  (∀ w, findWord s.spelling.words l.word = some w →
    (w.generation ≠ l.generation → u = lookupOver s) ∧
    (w.generation = l.generation → good = true ∨ w.accepted = true → u = releaseAdvance (lookupJudged l good s)) ∧
    (w.generation = l.generation → good = false → w.accepted = false → u = releaseAdvance
      (raise .spell 0 [byte w.id, byte w.first, byte w.count] (askSound .doubleBeep (lookupJudged l good s)))))

theorem applyResult_result (good : Bool) : lookupResult s l good (applyResult good (withLookup l s)) := by
  have hcases : applyResult good (withLookup l s) =
      match findWord s.spelling.words l.word with
      | none => lookupOver s
      | some w =>
        if w.generation ≠ l.generation then lookupOver s
        else releaseAdvance
          (if good ∨ w.accepted then modifyWord w.id (fun w => { w with state := if good then .good else .unknown }) (lookupOver s)
          else raiseSpell 0 [byte w.id, byte w.first, byte w.count] (askSound .doubleBeep
            (modifyWord w.id (fun w => { w with state := if good then .good else .unknown }) (lookupOver s)))) := rfl
  refine ⟨fun hnone => hcases.trans (by rw [hnone]), fun w hw => ?_⟩
  simp only [hw] at hcases
  have hid : w.id = l.word := by simpa using List.find?_some hw
  have hjudged : modifyWord w.id (fun w => { w with state := if good then .good else .unknown }) (lookupOver s) =
      lookupJudged l good s := by
    rw [hid]
    rfl
  rw [hjudged] at hcases
  refine ⟨fun hgen => hcases.trans (if_pos hgen), fun hgen hgood => hcases.trans ?_, fun hgen hbad hacc => hcases.trans ?_⟩
  · rw [if_neg (not_not.mpr hgen), if_pos hgood]
  · rw [if_neg (not_not.mpr hgen), if_neg (by simp [hbad, hacc])]
    rfl

/-! ### The user words and the dictionary (R131, R132) -/

/-- R132: how a lookup goes on among the user words. -/
def lookupInWords (s : State) (l : Lookup) (k : Nat) (u : State) : Prop :=
  (15 < l.letters.length ∨ (∀ i, ¬lowestWith s.spelling.userIndex l.hash k i) → lookupResult s l false u) ∧
  (∀ i, l.letters.length ≤ 15 → lowestWith s.spelling.userIndex l.hash k i →
    u = askMemory .lookup (.read (0x0200 + 16 * i)) (withLookup { l with progress := .slot i [] } s))

theorem searchUserWords_words (k : Nat) : lookupInWords s l k (searchUserWords k (withLookup l s)) := by
  have hcases : searchUserWords k (withLookup l s) =
      if 15 < l.letters.length then applyResult false (withLookup l s)
      else
        match slotWithHash s.spelling.userIndex l.hash k with
        | none => applyResult false (withLookup l s)
        | some i => askMemory .lookup (.read (userSlotAddress i)) (withLookup { l with progress := .slot i [] } s) := rfl
  refine ⟨fun hnone => ?_, fun i hlen hi => ?_⟩
  · suffices h : searchUserWords k (withLookup l s) = applyResult false (withLookup l s) by
      rw [h]
      exact applyResult_result false
    rw [hcases]
    split
    · rfl
    next hlen =>
      have hno : slotWithHash s.spelling.userIndex l.hash k = none :=
        Option.eq_none_iff_forall_ne_some.mpr fun i hi =>
          (hnone.resolve_left hlen) i (slotWithHash_eq_some_iff.mp hi)
      rw [hno]
  · rw [hcases, if_neg (Nat.not_lt.mpr hlen), slotWithHash_eq_some_iff.mpr hi]
    rfl

/-- R131: how a lookup goes on in the dictionary. -/
def lookupInDictionary (s : State) (l : Lookup) (offset : Nat) (p : LookupProgress) (u : State) : Prop :=
  (0x3000 + offset + 4 ≤ endOfMemory s.memory.sizeCode →
    u = askMemory .lookup (.read (0x3000 + offset)) (withLookup { l with progress := p } s)) ∧
  (endOfMemory s.memory.sizeCode < 0x3000 + offset + 4 → lookupInWords s l 0 u)

theorem askDictionary_dictionary (p : LookupProgress) (offset : Nat) :
    lookupInDictionary s l offset p (askDictionary { l with progress := p } offset s) := by
  have hcases : askDictionary { l with progress := p } offset s =
      if 0x3000 + offset + 4 ≤ endOfMemory s.memory.sizeCode then
        askMemory .lookup (.read (0x3000 + offset)) (withLookup { l with progress := p } s)
      else searchUserWords 0 (withLookup { l with progress := p } s) :=
    if_congr decide_eq_true_iff rfl rfl
  refine ⟨fun hfits => hcases.trans (if_pos hfits), fun hpast => ?_⟩
  rw [hcases, if_neg (Nat.not_le.mpr hpast)]
  exact searchUserWords_words (l := { l with progress := p }) 0

/-! ### The end of a read (R131, R132) -/

section
variable {data : List Byte} (h : s.spelling.lookup = some l)
include h

theorem readEnd_lookup_of_entryLow (hp : l.progress = .entryLow) : readEnd .lookup data s =
    askDictionary { l with progress := .entryHigh data } (entryOffset (bucketOf s.spelling.status l.hash) + 4) s := by
  show lookupReadEnd data s = _
  simp only [lookupReadEnd, h, hp]

theorem readEnd_lookup_of_entryHigh {low : List Byte} (hp : l.progress = .entryHigh low) :
    readEnd .lookup data s = bucketKnown l (low ++ data) s := by
  show lookupReadEnd data s = _
  simp only [lookupReadEnd, h, hp]

theorem readEnd_lookup_of_scan {start extent : Nat} {bytes : List Byte}
    (hp : l.progress = .scan start extent bytes) {x : Scan}
    (hx : scanBucket l.letters 257 (min extent 256) (bytes ++ data) = x) :
    readEnd .lookup data s =
      match x with
      | .found => applyResult true s
      | .notFound => searchUserWords 0 s
      | .more =>
        askDictionary { l with progress := .scan start extent (bytes ++ data) } (start + (bytes ++ data).length) s := by
  show lookupReadEnd data s = _
  simp only [lookupReadEnd, h, hp, hx]
  cases x <;> rfl

theorem readEnd_lookup_of_slot {k : Nat} {bytes : List Byte} (hp : l.progress = .slot k bytes) :
    readEnd .lookup data s =
      if (bytes ++ data).length < slotReach (bytes ++ data) then
        askMemory .lookup (.read (userSlotAddress k + (bytes ++ data).length))
          (withLookup { l with progress := .slot k (bytes ++ data) } s)
      else if userSlotLetters (bytes ++ data) = some l.letters then applyResult true s
      else searchUserWords (k + 1) s := by
  show lookupReadEnd data s = _
  simp only [lookupReadEnd, h, hp, userSlotBytes_eq]
  rfl

theorem applyResult_result_self (good : Bool) : lookupResult s l good (applyResult good s) := by
  have hresult := applyResult_result (s := s) (l := l) good
  rwa [withLookup_self h] at hresult

theorem searchUserWords_words_self (k : Nat) : lookupInWords s l k (searchUserWords k s) := by
  have hwords := searchUserWords_words (s := s) (l := l) k
  rwa [withLookup_self h] at hwords

end

/-! ### A lookup begins (R130) -/

theorem beginLookups_of_idle (h : beginLookupOnce s = s) (n : Nat) : beginLookups n s = s := by
  induction n with
  | zero => rfl
  | succ n ih => rw [beginLookups, h, ih]

theorem beginLookupOnce_of_idle
    (h : s.spelling.lookup ≠ none ∨ s.spelling.unit ≠ .available ∨ s.spelling.checkQueue = []) :
    beginLookupOnce s = s := by
  unfold beginLookupOnce
  split
  next hlookup hunit hqueue =>
    obtain h | h | h := h
    · exact absurd hlookup h
    · exact absurd hunit h
    · rw [h] at hqueue
      cases hqueue
  next => rfl

/-- The state in which the head of the check queue is being looked up. -/
def lookupBegun (id : Nat) (rest : List Nat) (w : Word) (s : State) : State :=
  { s with spelling := { s.spelling with
      checkQueue := rest
      words := s.spelling.words.map fun w => if w.id = id then { w with state := .checking } else w
      lookup := some
        { word := id, generation := w.generation, hash := w.hash, progress := .entryLow
          letters := wordLetters s.line.cells id } } }

theorem beginLookupOnce_of_head {id : Nat} {rest : List Nat} {w : Word} (hlookup : s.spelling.lookup = none)
    (hunit : s.spelling.unit = .available) (hqueue : s.spelling.checkQueue = id :: rest)
    (hw : findWord s.spelling.words id = some w)
    (hfits : 0x3000 + entryOffset (bucketOf s.spelling.status w.hash) + 4 ≤ endOfMemory s.memory.sizeCode) :
    beginLookupOnce s = askMemory .lookup (.read (0x3000 + entryOffset (bucketOf s.spelling.status w.hash)))
      (lookupBegun id rest w s) := by
  unfold beginLookupOnce
  split
  next id' rest' _ _ hqueue' =>
    rw [hqueue] at hqueue'
    cases hqueue'
    simp only [hw]
    exact if_pos (decide_eq_true hfits)
  next hother => exact absurd hqueue (hother id rest hlookup hunit)

end

/-- Settles O34: the beginning of a lookup, then its reads by how far it is. -/
theorem lookup_advances_read_by_read : Obligations.lookup_advances_read_by_read := by
  refine ⟨?begins, ?reads⟩
  case begins =>
    intro s x
    refine ⟨fun hidle => beginLookups_of_idle (beginLookupOnce_of_idle hidle) _, ?_⟩
    intro id rest w b hlookup hunit hqueue hw hstatus entry hfits
    have hoffset : 0x3000 + entryOffset (bucketOf s.spelling.status w.hash) = entry := by
      rw [show s.spelling.status = .valid b from hstatus]
      exact (Nat.add_assoc ..).symm
    have honce := beginLookupOnce_of_head hlookup hunit hqueue hw (by rw [hoffset]; exact hfits)
    rw [beginLookup, show s.spelling.checkQueue = id :: rest from hqueue, List.length_cons, beginLookups, honce, hoffset]
    exact beginLookups_of_idle (beginLookupOnce_of_idle (.inl (Option.some_ne_none _))) _
  case reads =>
    intro s l data hlookup x most reads result userWords dictionary u
    have hwords (k : Nat) : userWords k (searchUserWords k s) := searchUserWords_words_self hlookup k
    have hdictionary (offset : Nat) (p : LookupProgress) :
        dictionary offset p (askDictionary { l with progress := p } offset s) := askDictionary_dictionary p offset
    refine ⟨?low, ?high, ?scan, ?slot⟩
    case low =>
      intro b hp hstatus
      have hu := readEnd_lookup_of_entryLow (data := data) hlookup hp
      rw [show s.spelling.status = .valid b from hstatus] at hu
      rw [show u = _ from hu]
      exact hdictionary (4 + 3 * (l.hash % b) + 4) (.entryHigh data)
    case high =>
      intro low hp n start stop
      have hu : u = if stop ≤ start then searchUserWords 0 s
          else askDictionary { l with progress := .scan start (stop - start) [] } start s := by
        have hnum (i j k : Nat) : num24 ((low ++ data).getD i 0) ((low ++ data).getD j 0) ((low ++ data).getD k 0) =
            65536 * n i + 256 * n j + n k := by
          simp only [num24, n]
          omega
        refine (readEnd_lookup_of_entryHigh hlookup hp).trans ?_
        simp only [bucketKnown, hnum]
        rfl
      refine ⟨fun hempty => ?_, fun hfull => ?_⟩
      · rw [hu, if_pos hempty]
        exact hwords 0
      · rw [hu, if_neg (Nat.not_le.mpr hfull)]
        exact hdictionary start _
    case scan =>
      intro start extent bytes entries tail hp hlen hother hbytes room passed
      have hscan (hroom : passed ≤ room) : ∃ fuel, scanBucket l.letters 257 room (bytes ++ data) =
          scanBucket l.letters (fuel + 1) (room - passed) tail := by
        rw [hbytes]
        exact scanBucket_behind hlen hother hroom (Nat.min_le_right ..)
      have hu {v : Scan} (hv : scanBucket l.letters 257 room (bytes ++ data) = v) :=
        readEnd_lookup_of_scan hlookup hp hv
      have hnot (hv : scanBucket l.letters 257 room (bytes ++ data) = .notFound) : userWords 0 u := by
        rw [show u = _ from hu hv]
        exact hwords 0
      have hmore (hv : scanBucket l.letters 257 room (bytes ++ data) = .more) :
          dictionary (start + (bytes ++ data).length) (.scan start extent (bytes ++ data)) u := by
        rw [show u = _ from hu hv]
        exact hdictionary _ _
      refine ⟨fun hall => ?_, fun hroom htail => ?_, fun n rest hroom htail => ?_⟩
      · obtain ⟨fuel, hv⟩ := hscan (Nat.le_of_eq hall)
        rw [hall, Nat.sub_self] at hv
        exact hnot (hv.trans scanBucket_of_no_room)
      · obtain ⟨fuel, hv⟩ := hscan (Nat.le_of_lt hroom)
        rw [htail] at hv
        exact hmore (hv.trans (scanBucket_of_no_bytes (by omega)))
      · obtain ⟨fuel, hv⟩ := hscan (Nat.le_of_lt hroom)
        rw [htail] at hv
        refine ⟨fun hbad => hnot (hv.trans (scanBucket_of_bad (by omega) ?_)), fun hmin hmax hfits => ?_⟩
        · exact hbad.imp_right (Or.imp_right fun h => by omega)
        have hfair := hv.trans (scanBucket_of_fair hmin hmax (by omega))
        refine ⟨fun hshort => hmore (hfair.trans (if_pos hshort)), fun hwhole hfound => ?_⟩
        have hv' := hfair.trans ((if_neg (Nat.not_lt.mpr hwhole)).trans (if_pos hfound))
        rw [show u = _ from hu hv']
        exact applyResult_result_self hlookup true
    case slot =>
      intro k bytes hp all
      have hu := readEnd_lookup_of_slot (data := data) hlookup hp
      refine ⟨fun hshort => hu.trans (if_pos hshort), fun hall hholds => ?_, fun hall hholds => ?_⟩
      · have hsame := (userSlotLetters_eq_some_iff hall).mpr hholds
        have hu' := hu.trans ((if_neg (Nat.not_lt.mpr hall)).trans (if_pos hsame))
        rw [show u = _ from hu']
        exact applyResult_result_self hlookup true
      · have hother := mt (userSlotLetters_eq_some_iff hall).mp hholds
        have hu' := hu.trans ((if_neg (Nat.not_lt.mpr hall)).trans (if_neg hother))
        rw [show u = _ from hu']
        exact hwords (k + 1)

end Sys2Proof.Machine


/-! ## STARTING, DICT-CLOSE and the user-word operations, read by read (O35) -/

namespace Sys2Proof.Machine

section

variable {s : State}

/-! ### The dictionary header (R140, R164) -/

/-- R137: a dictionary header that is valid. -/
def isDictionary (data : List Byte) : Prop :=
  at8 data 0 = 0xD1 ∧ at8 data 1 = 0x5C ∧ 1 ≤ at16 data 2 ∧ at16 data 2 ≤ 4096

theorem dictionaryStatus_of_valid {data : List Byte} (h : isDictionary data) :
    dictionaryStatus data = .valid (at16 data 2) := if_pos h

theorem dictionaryStatus_of_bad {data : List Byte} (h : ¬isDictionary data) : dictionaryStatus data = .bad := if_neg h

theorem becomeAvailable_of_available (h : s.spelling.unit = .available) : becomeAvailable s = s := if_pos h

theorem becomeAvailable_of_other (h : s.spelling.unit ≠ .available) : becomeAvailable s =
    raise .spell 4 [1] { s with spelling := { s.spelling with unit := .available } } := if_neg h

/-- A download that is closed, its dictionary judged. -/
def downloadClosed (status : DictStatus) (s : State) : State :=
  { s with memory := { s.memory with dictClose := false }, spelling := { s.spelling with status := status } }

theorem closeReadEnd_of_valid {data : List Byte} (h : isDictionary data) : closeReadEnd data s =
    raise .memory 0 [6]
      (if s.spelling.unit = .starting then downloadClosed (.valid (at16 data 2)) s
      else becomeAvailable (downloadClosed (.valid (at16 data 2)) s)) := by
  simp only [closeReadEnd, dictionaryStatus_of_valid h]
  rfl

theorem closeReadEnd_of_bad {data : List Byte} (h : ¬isDictionary data) :
    closeReadEnd data s = raise .memory 6 [6] (downloadClosed .bad s) := by
  simp only [closeReadEnd, dictionaryStatus_of_bad h]
  rfl

/-! ### The index loading (R140) -/

section
variable {k : Nat} {bytes data : List Byte} (h : s.spelling.startup = .index k bytes)
include h

theorem indexReadEnd_of_more (hmore : (bytes ++ data).length < slotReach (bytes ++ data)) : indexReadEnd data s =
    askMemory .indexLoad (.read (0x0200 + 16 * k + (bytes ++ data).length))
      (setSpelling { s.spelling with startup := .index k (bytes ++ data) } s) := by
  rw [← userSlotBytes_eq] at hmore
  simp only [indexReadEnd, h]
  exact if_pos hmore

theorem indexReadEnd_of_whole (hwhole : slotReach (bytes ++ data) ≤ (bytes ++ data).length) : indexReadEnd data s =
    if k + 1 < 256 then askIndexSlot (k + 1) (setSpelling { s.spelling with
      userIndex := s.spelling.userIndex.set k ((userSlotLetters (bytes ++ data)).map wordHash) } s)
    else indexLoaded (setSpelling { s.spelling with
      userIndex := s.spelling.userIndex.set k ((userSlotLetters (bytes ++ data)).map wordHash) } s) := by
  rw [← userSlotBytes_eq] at hwhole
  conv_lhs => simp only [indexReadEnd, h]
  exact if_neg (Nat.not_lt.mpr hwhole)

end

/-- The index entry that a slot's bytes give. -/
theorem indexEntry_eq {bytes : List Byte} {e : Option Nat} (h : slotReach bytes ≤ bytes.length)
    (hheld : ∀ letters, slotHolds bytes letters → e = some (wordHash letters))
    (hfree : (∀ letters, ¬slotHolds bytes letters) → e = none) : (userSlotLetters bytes).map wordHash = e := by
  cases hl : userSlotLetters bytes with
  | none =>
    refine (hfree fun letters hholds => ?_).symm
    rw [(userSlotLetters_eq_some_iff h).mpr hholds] at hl
    cases hl
  | some letters => exact (hheld letters ((userSlotLetters_eq_some_iff h).mp hl)).symm

theorem indexLoaded_of_valid {b : Nat} (h : s.spelling.status = .valid b) :
    indexLoaded s = becomeAvailable (setSpelling { s.spelling with startup := .none } s) := by
  simp only [indexLoaded, setSpelling_spelling, h]

/-- The reason for which the unit is UNAVAILABLE after the index loading. -/
def unavailableReason : DictStatus → Nat
  | .valid _ | .absent => 0
  | .download => 2
  | .bad | .none => 1

theorem indexLoaded_of_other (h : ∀ b, s.spelling.status ≠ .valid b) : indexLoaded s =
    releaseAdvance (becomeUnavailable (unavailableReason s.spelling.status)
      (setSpelling { s.spelling with startup := .none } s)) := by
  cases hs : s.spelling.status with
  | valid b => exact absurd hs (h b)
  | _ =>
    simp only [indexLoaded, setSpelling_spelling, hs]
    rfl

/-! ### The user-word operations (R138, R139) -/

/-- A user-word operation under way. -/
def withOp (kind : UserWordKind) (letters : List Nat) (hash : Nat) (p : UserWordProgress) (s : State) : State :=
  setSpelling { s.spelling with
    userOp := some { kind := kind, letters := letters, hash := hash, progress := p } } s

/-- The code of a user-word operation in a MEMORY report. -/
def opCode : UserWordKind → Byte
  | .add => 0
  | .remove => 1

section
variable {kind : UserWordKind} {letters : List Nat} {hash : Nat} {p : UserWordProgress}
  (h : s.spelling.userOp = some { kind := kind, letters := letters, hash := hash, progress := p })
include h

theorem endUserOp_of_op (reason : Nat) : endUserOp reason s =
    raise .memory reason [opCode kind] (setSpelling { s.spelling with userOp := none } s) := by
  simp only [endUserOp, h]
  cases kind <;> rfl

omit h in
theorem endUserOp_setSpelling {y : SpellingUnit}
    (h : y.userOp = some { kind := kind, letters := letters, hash := hash, progress := p }) (reason : Nat) :
    endUserOp reason (setSpelling y s) =
      raise .memory reason [opCode kind] { s with spelling := { y with userOp := none } } :=
  endUserOp_of_op (s := setSpelling y s) h reason

theorem compareUserWords_of_slot {k i : Nat} (hi : lowestWith s.spelling.userIndex hash k i) :
    compareUserWords k s =
      askMemory .userWord (.read (0x0200 + 16 * i)) (withOp kind letters hash (.compare i []) s) := by
  simp only [compareUserWords, h, slotWithHash_eq_some_iff.mpr hi]
  rfl

end

section
variable {letters : List Nat} {hash k : Nat} {p : UserWordProgress}
  (hnone : ∀ i, ¬lowestWith s.spelling.userIndex hash k i)
include hnone

theorem slotWithHash_of_none : slotWithHash s.spelling.userIndex hash k = none :=
  Option.eq_none_iff_forall_ne_some.mpr fun i hi => hnone i (slotWithHash_eq_some_iff.mp hi)

theorem compareUserWords_of_absent
    (h : s.spelling.userOp = some { kind := .remove, letters := letters, hash := hash, progress := p }) :
    compareUserWords k s = endUserOp 5 s := by
  simp only [compareUserWords, h, slotWithHash_of_none hnone]

theorem compareUserWords_of_full
    (h : s.spelling.userOp = some { kind := .add, letters := letters, hash := hash, progress := p })
    (hfull : none ∉ s.spelling.userIndex) : compareUserWords k s = endUserOp 4 s := by
  have hfree (x : Option Nat) : x.isNone = true ↔ x = none := Option.isNone_iff_eq_none
  simp only [compareUserWords, h, slotWithHash_of_none hnone, (findIdx?_entry_eq_none_iff hfree).mpr hfull]

theorem compareUserWords_of_free
    (h : s.spelling.userOp = some { kind := .add, letters := letters, hash := hash, progress := p })
    {before after : List (Option Nat)} (hindex : s.spelling.userIndex = before ++ none :: after)
    (hbefore : none ∉ before) : compareUserWords k s =
      askMemory .userWord (addWordAccess before.length 0 letters)
        (withOp .add letters hash (.write before.length 0) s) := by
  have hfree : s.spelling.userIndex.findIdx? (fun e => e.isNone) = some before.length := by
    rw [hindex, findIdx?_isNone_of_split hbefore]
  simp only [compareUserWords, h, slotWithHash_of_none hnone, hfree]
  rfl

end

section
variable {kind : UserWordKind} {letters : List Nat} {hash k : Nat} {bytes data : List Byte}
  (h : s.spelling.userOp = some { kind := kind, letters := letters, hash := hash, progress := .compare k bytes })
include h

theorem userReadEnd_of_more (hmore : (bytes ++ data).length < slotReach (bytes ++ data)) : userReadEnd data s =
    askMemory .userWord (.read (0x0200 + 16 * k + (bytes ++ data).length))
      (withOp kind letters hash (.compare k (bytes ++ data)) s) := by
  rw [← userSlotBytes_eq] at hmore
  simp only [userReadEnd, h]
  exact if_pos hmore

theorem userReadEnd_of_same (hwhole : slotReach (bytes ++ data) ≤ (bytes ++ data).length)
    (hsame : slotHolds (bytes ++ data) letters) : userReadEnd data s =
      match kind with
      | .add => endUserOp 3 s
      | .remove => askMemory .userWord (.write (0x0200 + 16 * k) [0, 0, 0, 0])
          (withOp kind letters hash (.write k 0) s) := by
  rw [← userSlotLetters_eq_some_iff hwhole] at hsame
  rw [← userSlotBytes_eq] at hwhole
  simp only [userReadEnd, h]
  refine (if_neg (Nat.not_lt.mpr hwhole)).trans ((if_pos hsame).trans ?_)
  cases kind <;> rfl

theorem userReadEnd_of_other (hwhole : slotReach (bytes ++ data) ≤ (bytes ++ data).length)
    (hother : ¬slotHolds (bytes ++ data) letters) : userReadEnd data s = compareUserWords (k + 1) s := by
  rw [← userSlotLetters_eq_some_iff hwhole] at hother
  rw [← userSlotBytes_eq] at hwhole
  simp only [userReadEnd, h]
  exact (if_neg (Nat.not_lt.mpr hwhole)).trans (if_neg hother)

end

section
variable {letters : List Nat} {hash slot done : Nat}

theorem userWriteEnd_of_added
    (h : s.spelling.userOp = some { kind := .add, letters := letters, hash := hash, progress := .write slot done }) :
    userWriteEnd s =
      if done + 1 < 4 then
        askMemory .userWord (addWordAccess slot (done + 1) letters)
          (withOp .add letters hash (.write slot (done + 1)) s)
      else
        endUserOp 0 (setSpelling { s.spelling with
          userIndex := s.spelling.userIndex.set slot (some hash)
          ignoreList := s.spelling.ignoreList.filter fun e => e != { letters := letters, hash := hash } } s) := by
  conv_lhs => simp only [userWriteEnd, h]
  rw [← h]
  rfl

theorem userWriteEnd_of_removed
    (h : s.spelling.userOp = some { kind := .remove, letters := letters, hash := hash, progress := .write slot done }) :
    userWriteEnd s =
      endUserOp 0 (setSpelling { s.spelling with userIndex := s.spelling.userIndex.set slot none } s) := by
  conv_lhs => simp only [userWriteEnd, h]
  rw [← h]

end

end

/-- Settles O35: the header, the index loading, and the operations by their kind and progress. -/
theorem spelling_reads_and_user_word_operations_advance :
    Obligations.spelling_reads_and_user_word_operations_advance := by
  refine ⟨?header, ?index, ?word⟩
  case header =>
    intro s data x n b valid closed
    have hb : at16 data 2 = b := by
      simp only [at16, num16, b, n, Nat.reduceAdd]
      omega
    have hvalid : isDictionary data ↔ valid := by
      rw [isDictionary, hb]
      rfl
    refine ⟨fun status hopen hclosed => ?_, fun hok hunit => ?_, fun hok hunit => ?_, fun hbad => ?_⟩
    · have hheader : headerRead data s = { s with spelling := { x with status := status } } := by
        rw [headerRead]
        split
        next h => rw [hopen h]
        next h =>
          rw [hclosed (Bool.eq_false_iff.mpr h)]
          by_cases hok : valid
          · rw [dictionaryStatus_of_valid (hvalid.mpr hok), if_pos hok, hb]
            rfl
          · rw [dictionaryStatus_of_bad (mt hvalid.mp hok), if_neg hok]
            rfl
      show askIndexSlot 0 (headerRead data s) = _
      rw [hheader]
      rfl
    · refine (closeReadEnd_of_valid (hvalid.mpr hok)).trans (congrArg (raise .memory 0 [6]) ?_)
      rw [hb]
      split
      · rfl
      next hstarting =>
        refine becomeAvailable_of_available (s := downloadClosed (.valid b) s) ?_
        cases hu : x.unit with
        | available => exact hu
        | starting => exact absurd hu hstarting
        | unavailable => exact absurd hu hunit
    · refine (closeReadEnd_of_valid (hvalid.mpr hok)).trans (congrArg (raise .memory 0 [6]) ?_)
      have hunit' : s.spelling.unit = .unavailable := hunit
      rw [hb, if_neg (by rw [hunit']; decide), becomeAvailable_of_other]
      · rfl
      · rw [show (downloadClosed (.valid b) s).spelling.unit = .unavailable from hunit]
        decide
    · exact closeReadEnd_of_bad (mt hvalid.mp hbad)
  case index =>
    intro s k bytes data e hstartup x all u
    refine ⟨fun hmore => indexReadEnd_of_more hstartup hmore, fun hwhole hheld hfree => ?_⟩
    intro filled without
    have hu := indexReadEnd_of_whole hstartup hwhole
    rw [indexEntry_eq hwhole hheld hfree] at hu
    refine ⟨fun hk => hu.trans (if_pos (by omega)), fun hk hunit => ?_⟩
    have hloaded : u = indexLoaded (setSpelling filled s) := hu.trans (if_neg (by omega))
    have hother (hstatus : ∀ b, x.status ≠ .valid b) :
        u = without (byte (unavailableReason x.status)) := by
      rw [hloaded, indexLoaded_of_other (s := setSpelling filled s) hstatus, becomeUnavailable_of_other]
      · rfl
      · exact fun h => absurd (hunit.symm.trans h) (by decide)
    refine ⟨fun b hstatus => ?_, fun hstatus => ?_, fun hstatus => ?_⟩
    · rw [hloaded, indexLoaded_of_valid (s := setSpelling filled s) hstatus, becomeAvailable_of_other]
      · rfl
      · exact fun h => absurd (hunit.symm.trans h) (by decide)
    · rw [hother (by rw [hstatus]; exact fun _ => DictStatus.noConfusion), hstatus]
      rfl
    · obtain hstatus | hstatus := hstatus
      · rw [hother (by rw [hstatus]; exact fun _ => DictStatus.noConfusion), hstatus]
        rfl
      · rw [hother (by rw [hstatus]; exact fun _ => DictStatus.noConfusion), hstatus]
        rfl
  case word =>
    intro s kind letters hash p hop x image op goes ends
    have himage : userSlotImage letters = image := by
      rw [userSlotImage, padTo, List.length_cons, List.length_map, show 16 - (letters.length + 1) = 15 - letters.length by omega]
    have hcode : opCode kind = op := by cases kind <;> rfl
    have hends (reason : Nat) : ends reason x (endUserOp reason s) := by
      rw [endUserOp_of_op hop, hcode]
      rfl
    refine ⟨?compare, ?write, rfl⟩
    case compare =>
      intro k bytes data hp all u
      subst hp
      refine ⟨fun hmore => userReadEnd_of_more hop hmore, fun hwhole hsame => ?_, fun hwhole hother => ?_⟩
      · have hu := userReadEnd_of_same hop hwhole hsame
        refine ⟨fun hkind => ?_, fun hkind => ?_⟩
        · subst hkind
          rw [show u = endUserOp 3 s from hu]
          exact hends 3
        · subst hkind
          exact hu
      · have hu : u = compareUserWords (k + 1) s := userReadEnd_of_other hop hwhole hother
        refine ⟨fun i hi => hu.trans (compareUserWords_of_slot hop hi), fun hnone => ⟨fun hkind => ?_,
          fun hkind hfull => ?_, fun before after hkind hindex hbefore => ?_⟩⟩
        · subst hkind
          rw [hu, compareUserWords_of_absent hnone hop]
          exact hends 5
        · subst hkind
          rw [hu, compareUserWords_of_full hnone hop hfull]
          exact hends 4
        · subst hkind
          rw [hu, compareUserWords_of_free hnone hop hindex hbefore, addWordAccess, himage]
          rfl
    case write =>
      intro slot done hp u
      subst hp
      refine ⟨fun hkind hmore => ?_, fun hkind hlast => ?_, fun hkind hall => ?_, fun hkind => ?_⟩
      · subst hkind
        refine ((userWriteEnd_of_added hop).trans (if_pos (by omega))).trans ?_
        rw [addWordAccess, himage, if_pos (by omega)]
        rfl
      · subst hkind
        refine ((userWriteEnd_of_added hop).trans (if_pos (by omega))).trans ?_
        rw [addWordAccess, himage, if_neg (by omega), hlast]
        rfl
      · subst hkind
        refine ((userWriteEnd_of_added hop).trans (if_neg (by omega))).trans ?_
        exact endUserOp_setSpelling (kind := .add) (letters := letters) (hash := hash) (p := .write slot done) (by exact hop) 0
      · subst hkind
        refine (userWriteEnd_of_removed hop).trans ?_
        exact endUserOp_setSpelling (kind := .remove) (letters := letters) (hash := hash) (p := .write slot done) (by exact hop) 0

end Sys2Proof.Machine


/-! ## Detection and its end (O36, O37) -/

namespace Sys2Proof.Machine

section

variable {s : State}

/-! ### Detection step by step (R155) -/

theorem exec_transactionEnd_of_detecting (h : s.memory.detection ≠ .none) :
    exec .transactionEnd s = .next (textEvent (detectionStep s)) :=
  if_pos (bne_iff_ne.mpr h)

/-- R155: a memory of the width answers with the header. -/
def headerRead4 (c : Chip) (w : AddressWidth) (most n : Nat) : Prop :=
  c.width = some w ∧ c.cells.read 0 = 0xB7 ∧ c.cells.read 1 = 0x4E ∧ c.cells.read 2 = 1 ∧
    (c.cells.read 3).toNat = n ∧ 1 ≤ n ∧ n ≤ most

theorem read4_of_width {c : Chip} {w : AddressWidth} (h : c.width = some w) (a : Nat) :
    c.read4 w a = (List.range 4).map fun k => c.cells.read (a + k) := if_pos h

theorem read4_of_other_width {c : Chip} {w : AddressWidth} (h : c.width ≠ some w) (a : Nat) :
    c.read4 w a = [0xFF, 0xFF, 0xFF, 0xFF] := if_neg h

/-- The four bytes match where the memory is of the width and holds the header. -/
theorem headerMatches_iff {c : Chip} {w : AddressWidth} {most : Nat} :
    headerMatches (c.read4 w 0) most = true ↔ headerRead4 c w most (at8 (c.read4 w 0) 3) := by
  by_cases hw : c.width = some w
  · have hread : c.read4 w 0 = [c.cells.read 0, c.cells.read 1, c.cells.read 2, c.cells.read 3] := read4_of_width hw 0
    rw [hread, headerRead4]
    simp only [headerMatches, Bool.and_eq_true, beq_iff_eq, at8, eq_iff_toNat_eq]
    constructor
    · rintro ⟨⟨⟨⟨h0, h1⟩, h2⟩, hmin⟩, hmax⟩
      exact ⟨hw, h0, h1, h2, rfl, of_decide_eq_true hmin, of_decide_eq_true hmax⟩
    · rintro ⟨-, h0, h1, h2, -, hmin, hmax⟩
      exact ⟨⟨⟨⟨h0, h1⟩, h2⟩, decide_eq_true hmin⟩, decide_eq_true hmax⟩
  · rw [read4_of_other_width hw]
    exact iff_of_false Bool.false_ne_true fun h => hw h.1

theorem at8_header {c : Chip} {w : AddressWidth} {most n : Nat} (h : headerRead4 c w most n) :
    at8 (c.read4 w 0) 3 = n := by
  obtain ⟨hw, -, -, -, hn, -⟩ := h
  rw [read4_of_width hw, ← hn]
  rfl

theorem headerMatches_of_header {c : Chip} {w : AddressWidth} {most n : Nat} (h : headerRead4 c w most n) :
    headerMatches (c.read4 w 0) most = true :=
  headerMatches_iff.mpr ((at8_header h).symm ▸ h)

theorem headerMatches_of_none {c : Chip} {w : AddressWidth} {most : Nat} (h : ∀ n, ¬headerRead4 c w most n) :
    ¬headerMatches (c.read4 w 0) most = true :=
  fun hmatch => h _ (headerMatches_iff.mp hmatch)

theorem detectionStep_of_poll {limit : Time} (h : s.memory.detection = .poll limit) : detectionStep s =
    { s with memory := { s.memory with detection := .header2 }, chip := { s.chip with busyFlag := false } } := by
  conv_lhs => simp only [detectionStep, h]
  rfl

theorem detectionStep_of_header2 (h : s.memory.detection = .header2) : detectionStep s =
    if headerMatches (s.chip.read4 .two 0) 2 then memoryFound .twoByte (s.chip.read4 .two 0) s
    else setMemory { s.memory with detection := .header3 } s := by
  conv_lhs => simp only [detectionStep, h]

theorem detectionStep_of_header3 (h : s.memory.detection = .header3) : detectionStep s =
    if headerMatches (s.chip.read4 .three 0) 3 then memoryFound .threeByte (s.chip.read4 .three 0) s
    else memoryAbsent s := by
  conv_lhs => simp only [detectionStep, h]

theorem detectionStep_of_settings {bytes : List Byte} (h : s.memory.detection = .settings bytes) : detectionStep s =
    if (bytes ++ s.chip.read4 s.memory.state.width (0x0040 + bytes.length)).length < 192 then
      setMemory { s.memory with
        detection := .settings (bytes ++ s.chip.read4 s.memory.state.width (0x0040 + bytes.length)) } s
    else endDetection (Settings.ofImage (bytes ++ s.chip.read4 s.memory.state.width (0x0040 + bytes.length))) s := by
  conv_lhs => simp only [detectionStep, h]

theorem exec_detectionPollLimit_of_poll {limit : Time} (h : s.memory.detection = .poll limit) :
    exec .detectionPollLimit s = .next (setMemory { s.memory with detection := .header2 } (s.reach limit)) := by
  show execDetectionPollLimit s = _
  unfold execDetectionPollLimit
  rw [h]

theorem exec_detectionPollLimit_of_other (h : ∀ limit, s.memory.detection ≠ .poll limit) :
    exec .detectionPollLimit s = .next s := by
  show execDetectionPollLimit s = _
  unfold execDetectionPollLimit
  split
  next limit hlimit => exact absurd hlimit (h limit)
  next => rfl

end

/-- Settles O36: a step of detection by its stage, the poll's limit by whether a poll is under way. -/
theorem detection_finds_the_width_and_the_level : Obligations.detection_finds_the_width_and_the_level := by
  intro s c next header found ends
  have hends {u : State} (h : s.memory.detection ≠ .none) (hu : detectionStep s = u) : ends u :=
    (exec_transactionEnd_of_detecting h).trans (by rw [hu])
  refine ⟨fun limit hp => ⟨?_, exec_detectionPollLimit_of_poll hp⟩, exec_detectionPollLimit_of_other, fun hp => ?_,
    fun hp => ?_, fun bytes hp => ?_⟩
  · exact hends (by rw [hp]; exact Detection.noConfusion) (detectionStep_of_poll hp)
  · have hstep := detectionStep_of_header2 hp
    refine ⟨fun n hn => hends (by rw [hp]; exact Detection.noConfusion) ?_,
      fun hnone => hends (by rw [hp]; exact Detection.noConfusion) (hstep.trans (if_neg (headerMatches_of_none hnone)))⟩
    rw [hstep, if_pos (headerMatches_of_header hn), memoryFound, at8_header hn]
    rfl
  · have hstep := detectionStep_of_header3 hp
    refine ⟨fun n hn => hends (by rw [hp]; exact Detection.noConfusion) ?_,
      fun hnone => hends (by rw [hp]; exact Detection.noConfusion) (hstep.trans (if_neg (headerMatches_of_none hnone)))⟩
    rw [hstep, if_pos (headerMatches_of_header hn), memoryFound, at8_header hn]
    rfl
  · have hstep := detectionStep_of_settings hp
    have hlength : (bytes ++ s.chip.read4 s.memory.state.width (0x0040 + bytes.length)).length = bytes.length + 4 := by
      rw [List.length_append, Chip.length_read4]
    refine ⟨c.read4 s.memory.state.width (0x0040 + bytes.length), Chip.length_read4 .., fun hw => read4_of_width hw _,
      fun hmore => hends (by rw [hp]; exact Detection.noConfusion) (hstep.trans (if_pos (by omega))),
      fun hall => hends (by rw [hp]; exact Detection.noConfusion) (hstep.trans (if_neg (by omega)))⟩

end Sys2Proof.Machine


/-! ## The end of detection (O37) -/

namespace Sys2Proof.Machine

section

variable {s : State}

/-! ### A change of the spelling mode (R134) -/

/-- What stands of the memory's controller where a user's requests are withdrawn. -/
def sameMemory (m n : MemoryController) : Prop :=
  n.detection = m.detection ∧ n.state = m.state ∧ n.sizeCode = m.sizeCode ∧ n.protect = m.protect

/-- R134: what a change of the spelling mode makes of the Spelling Unit. -/
def modeActs (old new : SpellingMode) (x y : SpellingUnit) : Prop :=
  y.unit = x.unit ∧
  (old = .hold → new ≠ .hold → ∀ w ∈ y.words, w.holdMark = false) ∧
  (old ≠ .off → new = .off →
    y.checkQueue = [] ∧ y.lookup = none ∧ ∀ w ∈ y.words, w.state ≠ .queued ∧ w.state ≠ .checking)

theorem modeActs_of_words {old new : SpellingMode} {x : SpellingUnit} {words : List Word}
    (hoff : ¬(old ≠ .off ∧ new = .off)) (hwords : old = .hold → new ≠ .hold → ∀ w ∈ words, w.holdMark = false) :
    modeActs old new x { x with words := words } :=
  ⟨rfl, hwords, fun hold hnew => absurd ⟨hold, hnew⟩ hoff⟩

/-- A word whose hold mark a change of the spelling mode clears. -/
def clearHold (old new : SpellingMode) (w : Word) : Word :=
  if old = .hold ∧ new ≠ .hold then { w with holdMark := false } else w

theorem clearHold_holdMark {old new : SpellingMode} (hold : old = .hold) (hnew : new ≠ .hold) (w : Word) :
    (clearHold old new w).holdMark = false := by
  rw [clearHold, if_pos ⟨hold, hnew⟩]

theorem skipOneWaiting_holdMark (reason : Option SkipReason) (w : Word) :
    (skipOneWaiting reason w).holdMark = w.holdMark := by
  rw [skipOneWaiting]
  split <;> rfl

theorem skipOneWaiting_state (reason : Option SkipReason) (w : Word) :
    (skipOneWaiting reason w).state ≠ .queued ∧ (skipOneWaiting reason w).state ≠ .checking := by
  rw [skipOneWaiting]
  split
  · exact ⟨WordState.noConfusion, WordState.noConfusion⟩
  next h => exact not_or.mp h

/-- A change of the spelling mode acts on the Spelling Unit, and withdraws the lookup's requests. -/
theorem spellingModeChanged_parts (old new : SpellingMode) (s : State) :
    ∃ y m, spellingModeChanged old new s = { s with spelling := y, memory := m } ∧
      modeActs old new s.spelling y ∧ sameMemory s.memory m ∧ (old = new → y = s.spelling ∧ m = s.memory) := by
  have heq := spellingModeChanged_eq old new s
  by_cases hoff : old ≠ .off ∧ new = .off
  · simp only [if_pos hoff] at heq
    refine ⟨_, _, heq, ⟨rfl, fun hold hnew w hw => ?_, fun _ _ => ⟨rfl, rfl, fun w hw => ?_⟩⟩, ⟨rfl, rfl, rfl, rfl⟩,
      fun h => absurd (h.trans hoff.2) hoff.1⟩
    · obtain ⟨v, hv, rfl⟩ := List.mem_map.mp hw
      obtain ⟨x, -, rfl⟩ := List.mem_map.mp hv
      exact (skipOneWaiting_holdMark none _).trans (clearHold_holdMark hold hnew x)
    · obtain ⟨v, -, rfl⟩ := List.mem_map.mp hw
      exact skipOneWaiting_state none v
  · simp only [if_neg hoff] at heq
    refine ⟨_, _, heq, modeActs_of_words hoff fun hold hnew w hw => ?_, ⟨rfl, rfl, rfl, rfl⟩, fun h => ⟨?_, rfl⟩⟩
    · obtain ⟨x, -, rfl⟩ := List.mem_map.mp hw
      exact clearHold_holdMark hold hnew x
    · have hmap : (s.spelling.words.map fun w =>
          if old = .hold ∧ new ≠ .hold then { w with holdMark := false } else w) = s.spelling.words :=
        (List.map_congr_left fun w _ => if_neg fun hboth => hboth.2 (h ▸ hboth.1)).trans (List.map_id' _)
      rw [hmap]

/-! ### Settings taken up (R8, R156, R165) -/

/-- The state with the settings at their owners, before the spelling mode acts. -/
def settingsSet (y : Settings) (s : State) : State :=
  { s with
    composer := { s.composer with
      format := y.format
      printPoint := if y.format.leftMargin ≠ s.composer.format.leftMargin ∧ s.line.cells = [] then
        y.format.leftMargin else s.composer.printPoint }
    line := { s.line with composing := { s.line.composing with
      leftMargin := if y.format.leftMargin ≠ s.composer.format.leftMargin ∧ s.line.cells = [] then
        y.format.leftMargin else s.line.composing.leftMargin } }
    zone := { s.zone with
      tabStops := y.tabStops, watch1 := { y.watch1 with enabled := false },
      watch2 := { y.watch2 with enabled := false } }
    wheel := { s.wheel with composites := y.composites }
    display := { s.display with contrast := y.contrast }
    sounder := { s.sounder with volume := y.volume }
    link := { s.link with
      mask := y.mask ||| 1
      reports := s.link.reports.filter fun e => (y.mask ||| 1).getLsbD e.kind.index } }

theorem applySettings_eq (y : Settings) (s : State) : applySettings y s =
    if s.composer.format.spelling = y.format.spelling then
      spellingModeChanged s.composer.format.spelling y.format.spelling (settingsSet y s)
    else releaseAdvance (spellingModeChanged s.composer.format.spelling y.format.spelling (settingsSet y s)) := by
  let owners : State := { s with
    zone := { s.zone with tabStops := y.tabStops, watch1 := y.watch1.disabled, watch2 := y.watch2.disabled }
    wheel := { s.wheel with composites := y.composites }
    display := { s.display with contrast := y.contrast }
    sounder := { s.sounder with volume := y.volume }
    link := applyMask (y.mask ||| 1) s.link }
  have hset : relatchLeft s.composer.format.leftMargin
      { owners with composer := { owners.composer with format := y.format } } = settingsSet y s := by
    refine (relatchLeft_eq y.format owners).trans ?_
    by_cases h : y.format.leftMargin ≠ s.composer.format.leftMargin ∧ s.line.cells = []
    · simp only [settingsSet, owners, if_pos h]
      rfl
    · simp only [settingsSet, owners, if_neg h]
      rfl
  rw [← hset]
  rfl

theorem releaseAdvance_line (s : State) :
    ∃ cells, releaseAdvance s = { s with line := { s.line with cells := cells } } := by
  unfold releaseAdvance
  split
  · exact ⟨s.line.cells, rfl⟩
  · exact ⟨_, rfl⟩

/-- The settings taken up, part by part. -/
theorem applySettings_parts (y : Settings) (s : State) :
    ∃ x m cells, applySettings y s = { settingsSet y s with
        spelling := x, memory := m, line := { (settingsSet y s).line with cells := cells } } ∧
      modeActs s.composer.format.spelling y.format.spelling s.spelling x ∧ sameMemory s.memory m ∧
      (s.composer.format.spelling = y.format.spelling → applySettings y s = settingsSet y s) := by
  obtain ⟨x, m, hmode, hacts, hmemory, hsame⟩ :=
    spellingModeChanged_parts s.composer.format.spelling y.format.spelling (settingsSet y s)
  have heq := applySettings_eq y s
  by_cases h : s.composer.format.spelling = y.format.spelling
  · rw [if_pos h, hmode] at heq
    obtain ⟨hx, hm⟩ := hsame h
    refine ⟨x, m, s.line.cells, heq, hacts, hmemory, fun _ => ?_⟩
    rw [heq, hx, hm]
  · rw [if_neg h, hmode] at heq
    obtain ⟨cells, hcells⟩ :=
      releaseAdvance_line { settingsSet y s with spelling := x, memory := m }
    exact ⟨x, m, cells, heq.trans hcells, hacts, hmemory, fun hno => absurd hno h⟩

/-! ### The readers and the engine start (R83, R140, R156) -/

theorem startReaders_of_found (h : s.memory.state ≠ .absent) : startReaders s =
    askMemory .dictHeader (.read 0x3000) (askMemory .directory (.read 0x1200)
      { s with
        wheel := { s.wheel with directoryState := .loading, directoryRead := 0 }
        spelling := { s.spelling with startup := .header } }) := if_neg h

/-- The readers without a memory. -/
def readersAbsent (s : State) : State :=
  { s with
    wheel := { s.wheel with
      directoryState := .absent, directory := List.replicate 24 none, directoryRead := 0 }
    spelling := { s.spelling with status := .absent, userIndex := List.replicate 256 none, startup := .none } }

theorem startReaders_of_absent (h : s.memory.state = .absent) :
    startReaders s = releaseAdvance (becomeUnavailable 0 (readersAbsent s)) := if_pos h

theorem startReaders_sensors (s : State) : (startReaders s).sensors = s.sensors := by
  by_cases h : s.memory.state = .absent
  · rw [startReaders_of_absent h]
    obtain ⟨cells, hcells⟩ := releaseAdvance_line (becomeUnavailable 0 (readersAbsent s))
    rw [hcells]
    show (becomeUnavailable 0 (readersAbsent s)).sensors = s.sensors
    rw [becomeUnavailable]
    split
    · rfl
    · exact raise_sensors ..
  · rw [startReaders_of_found h]
    rfl

theorem startEngine_of_opened (h : s.sensors.cover.debounced = .opened) : startEngine s =
    raise .engine 5 [1] { s with engine := { s.engine with state := .paused .cover } } :=
  (if_pos (Sensors.isOpen_iff (i := .cover).mpr h)).trans (enterState_of_not_faulted rfl s)

theorem startEngine_of_closed (h : s.sensors.cover.debounced = .closed) : startEngine s = beginHoming s :=
  if_neg (Bool.eq_false_iff.mp (Sensors.isOpen_eq_false_iff (i := .cover).mpr h))

theorem raiseStart_eq (source : Nat) (s : State) : raiseStart source s = raise .start 0
    [1, (match s.memory.state with | .detecting => 0 | .absent => 1 | .twoByte => 2 | .threeByte => 3),
      byte (s.memory.sizeCode.getD 0), byte s.memory.protect, byte source] s := by
  rw [raiseStart]
  cases s.memory.state <;> rfl

theorem raise_spelling (k : ReportKind) (r : Nat) (d : List Byte) (s : State) :
    (raise k r d s).spelling = s.spelling := by
  rw [raise]
  split <;> rfl

end

/-- Settles O37: the settings at their owners, START, the readers and the engine, one after another. -/
theorem end_of_detection_starts_the_part : Obligations.end_of_detection_starts_the_part := by
  intro settings y s hy f moved set
  let t : State := applySettings y (setMemory { s.memory with detection := .none } s)
  let told : State := raiseStart (if settings.isSome then 0 else 1) t
  have hdefault : settings.getD .default = y := by
    obtain h | ⟨h, hy⟩ := hy
    · rw [h]
      rfl
    · rw [h, hy]
      rfl
  have hset : settingsSet y (setMemory { s.memory with detection := .none } s) = set := rfl
  obtain ⟨x, m, cells, hparts, ⟨hunit, hhold, hoff⟩, ⟨hdetection, hstate, hsize, hprotect⟩, hsame⟩ :=
    applySettings_parts y (setMemory { s.memory with detection := .none } s)
  have ht : t = { set with spelling := x, memory := m, line := { set.line with cells := cells } } := hparts
  have htmemory : t.memory = m := by rw [ht]
  have htspelling : t.spelling = x := by rw [ht]
  have htsensors : t.sensors = s.sensors := by rw [ht]
  have htoldsensors : (startReaders told).sensors = s.sensors :=
    (startReaders_sensors told).trans ((raise_sensors ..).trans htsensors)
  refine ⟨t, startReaders told, startEngine (startReaders told), ?_, fun hspelling => hsame hspelling.symm, ?_,
    ?_, ?_, ⟨told, ?_, fun hfound => ?_, fun habsent hunavailable => ?_⟩, fun hcover => ?_, fun hcover => ?_⟩
  · rw [endDetection, hdefault]
  · rw [ht]
    exact ⟨rfl, rfl, rfl, rfl, rfl, rfl, rfl, hdetection, rfl⟩
  · rw [htspelling]
    exact hhold
  · rw [htspelling]
    exact hoff
  · refine (raiseStart_eq _ t).trans ?_
    rw [htmemory, hstate, hsize, hprotect]
    obtain h | ⟨h, -⟩ := hy <;> rw [h] <;> rfl
  · have hmemory : told.memory.state ≠ .absent := by
      rw [show told.memory = t.memory from raise_memory .., htmemory, hstate]
      exact hfound
    exact startReaders_of_found hmemory
  · have hmemory : told.memory.state = .absent := by
      rw [show told.memory = t.memory from raise_memory .., htmemory, hstate]
      exact habsent
    have hspelling : (readersAbsent told).spelling.unit ≠ .unavailable := by
      show told.spelling.unit ≠ .unavailable
      rw [show told.spelling = t.spelling from raise_spelling .., htspelling, hunit]
      exact hunavailable
    rw [startReaders_of_absent hmemory, becomeUnavailable_of_other hspelling]
    rfl
  · exact startEngine_of_opened (htoldsensors ▸ hcover)
  · rw [startEngine_of_closed (htoldsensors ▸ hcover), beginHoming_eq]

end Sys2Proof.Machine


/-! ## The settings image reads back (O38) -/

namespace Sys2Proof.Machine

section

/-! ### The check byte (R165, R176) -/

theorem sumBytes_append_cons (before after : List Byte) (b : Byte) :
    sumBytes (before ++ b :: after) = after.foldl (· + ·) (sumBytes before + b) := by
  rw [sumBytes, List.foldl_append, List.foldl_cons]
  rfl

theorem foldl_add_injective (l : List Byte) {a b : Byte} (h : l.foldl (· + ·) a = l.foldl (· + ·) b) : a = b := by
  induction l generalizing a b with
  | nil => exact h
  | cons c l ih => exact add_right_cancel (ih h)

/-- Another byte in one place gives another check byte. -/
theorem checkByte_set_ne {l : List Byte} {i : Nat} {b : Byte} (hi : i < l.length) (hb : b ≠ l.getD i 0) :
    checkByte (l.set i b) ≠ checkByte l := by
  obtain ⟨before, v, after, rfl, hbefore⟩ : ∃ before v after, l = before ++ v :: after ∧ before.length = i := by
    refine ⟨l.take i, l[i], l.drop (i + 1), by simp, ?_⟩
    rw [List.length_take]
    omega
  subst hbefore
  rw [List.getD_eq_getElem?_getD, List.getElem?_append_right (Nat.le_refl _), Nat.sub_self] at hb
  rw [List.set_append_right _ _ (Nat.le_refl _), Nat.sub_self, List.set_cons_zero]
  intro h
  have hsum := sub_right_injective h
  rw [sumBytes_append_cons, sumBytes_append_cons] at hsum
  exact hb (add_left_cancel (foldl_add_injective after hsum))

/-- A record that is valid carries its check byte. -/
theorem Settings.check_of_ofImage {bs : List Byte} {x : Settings} (h : Settings.ofImage bs = some x) :
    bs.getD 191 0 = checkByte (bs.take 191) := by
  obtain ⟨f, -, h⟩ := Option.bind_eq_some_iff.mp h
  obtain ⟨w1, -, h⟩ := Option.bind_eq_some_iff.mp h
  obtain ⟨w2, -, h⟩ := Option.bind_eq_some_iff.mp h
  obtain ⟨⟨hcheck, -⟩, -⟩ := Option.ite_none_right_eq_some.mp h
  exact hcheck

/-! ### Reading a part of an image -/

/-- A byte of one part of an image. -/
theorem getD_part {before part after : List Byte} {i k : Nat} (hi : before.length = i) (hk : k < part.length) :
    (before ++ part ++ after).getD (i + k) 0 = part.getD k 0 := by
  subst hi
  rw [List.getD_eq_getElem?_getD, List.getElem?_append_left (by rw [List.length_append]; omega),
    List.getElem?_append_right (by omega), Nat.add_sub_cancel_left, ← List.getD_eq_getElem?_getD]

theorem at16_part {before after : List Byte} {i n : Nat} (hi : before.length = i) (hn : n < 65536) :
    at16 (before ++ be16 n ++ after) i = n := by
  rw [at16, show i = i + 0 from rfl, getD_part hi (by simp [be16]), getD_part hi (k := 1) (by simp [be16])]
  exact num16_be16 hn

theorem tabsAt_part {before after : List Byte} {i : Nat} {ps : List Nat} (hi : before.length = i)
    (hp : ∀ p ∈ ps, p < 65536) : tabsAt (before ++ ps.flatMap be16 ++ after) i ps.length = ps := by
  induction ps generalizing before i with
  | nil => rfl
  | cons p ps ih =>
    have hsplit : before ++ (p :: ps).flatMap be16 ++ after = before ++ be16 p ++ (ps.flatMap be16 ++ after) := by
      simp
    have hnext : before ++ (p :: ps).flatMap be16 ++ after = (before ++ be16 p) ++ ps.flatMap be16 ++ after := by
      simp
    rw [List.length_cons, tabsAt]
    congr 1
    · rw [hsplit, at16_part hi (hp p List.mem_cons_self)]
    · rw [hnext]
      exact ih (by rw [List.length_append, hi]; rfl) fun q hq => hp q (List.mem_cons_of_mem _ hq)

theorem compositesAt_part {before after : List Byte} {i : Nat} {cs : List Composite} (hi : before.length = i) :
    compositesAt (before ++ cs.flatMap Composite.bytes ++ after) i cs.length = cs := by
  induction cs generalizing before i with
  | nil => rfl
  | cons c cs ih =>
    have hsplit : before ++ (c :: cs).flatMap Composite.bytes ++ after =
        before ++ c.bytes ++ (cs.flatMap Composite.bytes ++ after) := by simp
    have hnext : before ++ (c :: cs).flatMap Composite.bytes ++ after =
        (before ++ c.bytes) ++ cs.flatMap Composite.bytes ++ after := by simp
    have hlen : c.bytes.length = 3 := rfl
    rw [List.length_cons, compositesAt]
    congr 1
    · rw [hsplit, show i = i + 0 from rfl, getD_part hi (by omega), getD_part hi (k := 0 + 1) (by omega),
        getD_part hi (k := 0 + 2) (by omega)]
      rfl
    · rw [hnext]
      exact ih (by rw [List.length_append, hi]; rfl)

/-! ### The parts of the settings record -/

theorem toInt_ofInt_small {i : Int} (hlow : -2 ≤ i) (hhigh : i ≤ 2) : (BitVec.ofInt 8 i).toInt = i := by
  have hcases : i = -2 ∨ i = -1 ∨ i = 0 ∨ i = 1 ∨ i = 2 := by omega
  obtain rfl | rfl | rfl | rfl | rfl := hcases <;> rfl

theorem Format.ofBytes_bytes {f : Format} (hright : f.rightMargin ≤ 1800) (hleft : f.leftMargin + 120 ≤ f.rightMargin)
    (hspacing : f.spacing ∈ [8, 12, 16, 20, 24]) (hlow : -2 ≤ f.impression) (hhigh : f.impression ≤ 2)
    (hslow : 1 ≤ f.speed) (hfast : f.speed ≤ 4) (hbell : f.bellZone ≤ 120) : Format.ofBytes f.bytes = some f := by
  have hpitch : at8 f.bytes 0 = f.pitch.code := toNat_byte (by cases f.pitch <;> decide)
  have halignment : at8 f.bytes 6 = f.alignment.code := toNat_byte (by cases f.alignment <;> decide)
  have hmode : at8 f.bytes 7 = f.mode.code := toNat_byte (by cases f.mode <;> decide)
  have hwrap : at8 f.bytes 8 = boolCode f.wrap := toNat_byte (by cases f.wrap <;> decide)
  have hspelling : at8 f.bytes 9 = f.spelling.code := toNat_byte (by cases f.spelling <;> decide)
  have hspeed : at8 f.bytes 11 = f.speed := toNat_byte (by omega)
  have hzone : at8 f.bytes 12 = f.bellZone := toNat_byte (by omega)
  have hL : at16 f.bytes 1 = f.leftMargin := num16_be16 (by omega)
  have hR : at16 f.bytes 3 = f.rightMargin := num16_be16 (by omega)
  have himpression : (f.bytes.getD 10 0).toInt = f.impression := toInt_ofInt_small hlow hhigh
  have hcode : spacingOfCode (at8 f.bytes 5) = some f.spacing := by
    have hbyte : at8 f.bytes 5 = f.spacing / 4 := toNat_byte (n := f.spacing / 4) (by simp at hspacing; omega)
    rw [hbyte, spacingOfCode_iff]
    simp at hspacing
    omega
  refine Option.bind_eq_some_iff.mpr ⟨f.pitch, Pitch.ofCode_iff.mpr hpitch.symm, Option.bind_eq_some_iff.mpr
    ⟨f.spacing, hcode, Option.bind_eq_some_iff.mpr ⟨f.alignment, Alignment.ofCode_iff.mpr halignment.symm,
    Option.bind_eq_some_iff.mpr ⟨f.mode, ComposingMode.ofCode_iff.mpr hmode.symm, Option.bind_eq_some_iff.mpr
    ⟨f.wrap, boolOfCode_iff.mpr hwrap.symm, Option.bind_eq_some_iff.mpr
    ⟨f.spelling, SpellingMode.ofCode_iff.mpr hspelling.symm, ?_⟩⟩⟩⟩⟩⟩
  rw [hspeed, hzone, hL, hR, himpression]
  exact if_pos ⟨hright, hleft, hlow, hhigh, hslow, hfast, hbell⟩

theorem alignDown_of_aligned {p span : Nat} (h : p % span = 0) : alignDown p span = p := by
  have := Nat.div_add_mod p span
  rw [alignDown, Nat.mul_comm]
  omega

theorem Watch.ofFields_self {w : Watch} (hw : watchAllowed w) :
    Watch.ofFields w.position w.span w.kind.code (boolCode w.enabled) = some w := by
  obtain ⟨position, span, kind, enabled⟩ := w
  obtain ⟨hspan, hposition, haligned⟩ := hw
  have hfields : (if position ≤ 1800 ∧ (span = 1 ∨ span = 2 ∨ span = 4 ∨ span = 8) then
      some ({ position := alignDown position span, span := span, kind := kind, enabled := enabled } : Watch)
      else none) = some { position := position, span := span, kind := kind, enabled := enabled } := by
    rw [if_pos ⟨hposition, hspan⟩, alignDown_of_aligned haligned]
  cases kind <;> cases enabled <;> exact hfields

theorem Watch.ofImage_part {before after : List Byte} {i : Nat} {w : Watch} (hi : before.length = i)
    (hw : watchAllowed w) : Watch.ofImage (before ++ w.bytes ++ after) i = some w := by
  have hlen : w.bytes.length = 5 := rfl
  have hposition : at16 (before ++ w.bytes ++ after) i = w.position := by
    rw [at16, show i = i + 0 from rfl, getD_part hi (by omega), getD_part hi (k := 0 + 1) (by omega)]
    exact num16_be16 (by have := hw.2.1; omega)
  have hat8 {k : Nat} (hk : k < 5) : at8 (before ++ w.bytes ++ after) (i + k) = (w.bytes.getD k 0).toNat :=
    congrArg BitVec.toNat (getD_part hi (by omega))
  have hspan : at8 (before ++ w.bytes ++ after) (i + 2) = w.span :=
    (hat8 (by omega)).trans (toNat_byte (by have := hw.1; omega))
  have hkind : at8 (before ++ w.bytes ++ after) (i + 3) = w.kind.code :=
    (hat8 (by omega)).trans (toNat_byte (by cases w.kind <;> decide))
  have henabled : at8 (before ++ w.bytes ++ after) (i + 4) = boolCode w.enabled :=
    (hat8 (by omega)).trans (toNat_byte (by cases w.enabled <;> decide))
  rw [Watch.ofImage, hposition, hspan, hkind, henabled, Watch.ofFields_self hw]
  exact if_pos rfl

/-! ### The whole record -/

theorem length_padTo {n : Nat} {bs : List Byte} (h : bs.length ≤ n) : (padTo n bs).length = n := by
  rw [padTo, List.length_append, List.length_replicate]
  omega

theorem length_flatMap_be16 (ps : List Nat) : (ps.flatMap be16).length = 2 * ps.length := by
  induction ps with
  | nil => rfl
  | cons p ps ih =>
    rw [List.flatMap_cons, List.length_append, ih, List.length_cons, be16]
    simp only [List.length_cons, List.length_nil]
    omega

theorem length_flatMap_composites (cs : List Composite) : (cs.flatMap Composite.bytes).length = 3 * cs.length := by
  induction cs with
  | nil => rfl
  | cons c cs ih =>
    rw [List.flatMap_cons, List.length_append, ih, List.length_cons, Composite.bytes]
    simp only [List.length_cons, List.length_nil]
    omega

/-- The parts of a record before the watches. -/
def Settings.head (x : Settings) : List Byte :=
  x.format.bytes ++ [byte x.tabStops.length] ++ padTo 48 (x.tabStops.flatMap be16)

/-- The parts of a record before its contrast. -/
def Settings.body (x : Settings) : List Byte :=
  x.head ++ x.watch1.bytes ++ x.watch2.bytes ++ [byte x.composites.length] ++
    padTo 96 (x.composites.flatMap Composite.bytes)

theorem Settings.fields_eq (x : Settings) : x.fields =
    x.body ++ [byte x.contrast, byte x.volume] ++ be16 x.mask.toNat ++ List.replicate 18 0 := rfl

theorem Settings.image_eq (x : Settings) : x.image =
    x.body ++ [byte x.contrast, byte x.volume] ++ be16 x.mask.toNat ++ List.replicate 18 0 ++ [checkByte x.fields] := rfl

theorem Settings.mask_prefix (x : Settings) :
    x.body ++ [byte x.contrast, byte x.volume] ++ be16 x.mask.toNat <+: x.image := by
  rw [Settings.image_eq]
  exact (List.prefix_append _ _).trans (List.prefix_append _ _)

theorem Settings.panel_prefix (x : Settings) : x.body ++ [byte x.contrast, byte x.volume] <+: x.image :=
  (List.prefix_append _ _).trans x.mask_prefix

theorem Settings.body_prefix (x : Settings) : x.body <+: x.image := (List.prefix_append _ _).trans x.panel_prefix

theorem Settings.composites_prefix (x : Settings) :
    x.head ++ x.watch1.bytes ++ x.watch2.bytes ++ [byte x.composites.length] ++
      x.composites.flatMap Composite.bytes <+: x.image := by
  refine List.IsPrefix.trans
    ⟨List.replicate (96 - (x.composites.flatMap Composite.bytes).length) 0, ?_⟩ x.body_prefix
  exact List.append_assoc ..

theorem Settings.count_prefix (x : Settings) :
    x.head ++ x.watch1.bytes ++ x.watch2.bytes ++ [byte x.composites.length] <+: x.image :=
  (List.prefix_append _ _).trans x.composites_prefix

theorem Settings.watch2_prefix (x : Settings) : x.head ++ x.watch1.bytes ++ x.watch2.bytes <+: x.image :=
  (List.prefix_append _ _).trans x.count_prefix

theorem Settings.watch1_prefix (x : Settings) : x.head ++ x.watch1.bytes <+: x.image :=
  (List.prefix_append _ _).trans x.watch2_prefix

theorem Settings.tabs_prefix (x : Settings) :
    x.format.bytes ++ [byte x.tabStops.length] ++ x.tabStops.flatMap be16 <+: x.image := by
  refine List.IsPrefix.trans ⟨List.replicate (48 - (x.tabStops.flatMap be16).length) 0, ?_⟩
    ((List.prefix_append _ _).trans x.watch1_prefix)
  exact List.append_assoc ..

section
variable {x : Settings} (htabs : x.tabStops.length ≤ 24) (hcomposites : x.composites.length ≤ 32)

section
include htabs

theorem Settings.length_head : x.head.length = 62 := by
  have hpad : (padTo 48 (x.tabStops.flatMap be16)).length = 48 :=
    length_padTo (by rw [length_flatMap_be16]; omega)
  rw [Settings.head, List.length_append, hpad]
  rfl

theorem Settings.tabs_image (hp : ∀ p ∈ x.tabStops, p ≤ 1800) :
    at8 x.image 13 = x.tabStops.length ∧ tabsAt x.image 14 x.tabStops.length = x.tabStops := by
  constructor
  · exact toNat_byte (n := x.tabStops.length) (by omega)
  · obtain ⟨after, hsplit⟩ := x.tabs_prefix
    rw [← hsplit]
    exact tabsAt_part rfl fun p hmem => by have := hp p hmem; omega

theorem Settings.watch1_image (hw : watchAllowed x.watch1) : Watch.ofImage x.image 62 = some x.watch1 := by
  obtain ⟨after, hsplit⟩ := x.watch1_prefix
  rw [← hsplit]
  exact Watch.ofImage_part (Settings.length_head htabs) hw

theorem Settings.watch2_image (hw : watchAllowed x.watch2) : Watch.ofImage x.image 67 = some x.watch2 := by
  obtain ⟨after, hsplit⟩ := x.watch2_prefix
  rw [← hsplit]
  exact Watch.ofImage_part (by rw [List.length_append, Settings.length_head htabs]; rfl) hw

end

include htabs hcomposites

theorem Settings.composites_image :
    at8 x.image 72 = x.composites.length ∧ compositesAt x.image 73 x.composites.length = x.composites := by
  have hbefore : (x.head ++ x.watch1.bytes ++ x.watch2.bytes).length = 72 := by
    rw [List.length_append, List.length_append, Settings.length_head htabs]
    rfl
  constructor
  · obtain ⟨after, hsplit⟩ := x.count_prefix
    rw [← hsplit, at8, show 72 = 72 + 0 from rfl, getD_part hbefore (by simp)]
    exact toNat_byte (by omega)
  · obtain ⟨after, hsplit⟩ := x.composites_prefix
    rw [← hsplit]
    exact compositesAt_part (by rw [List.length_append, hbefore]; rfl)

theorem Settings.length_body : x.body.length = 169 := by
  have hpad : (padTo 96 (x.composites.flatMap Composite.bytes)).length = 96 :=
    length_padTo (by rw [length_flatMap_composites]; omega)
  rw [Settings.body, List.length_append, hpad, List.length_append, List.length_append, List.length_append,
    Settings.length_head htabs]
  rfl

theorem Settings.length_fields : x.fields.length = 191 := by
  rw [Settings.fields_eq, List.length_append, List.length_append, List.length_append,
    Settings.length_body htabs hcomposites, List.length_replicate]
  rfl

theorem Settings.length_image : x.image.length = 192 := by
  rw [Settings.image, List.length_append, Settings.length_fields htabs hcomposites]
  rfl

theorem Settings.panel_image (hcontrast : x.contrast ≤ 15) (hvolume : x.volume ≤ 3) :
    at8 x.image 169 = x.contrast ∧ at8 x.image 170 = x.volume := by
  obtain ⟨after, hsplit⟩ := x.panel_prefix
  have hbefore := Settings.length_body htabs hcomposites
  constructor
  · rw [← hsplit, at8, show 169 = 169 + 0 from rfl, getD_part hbefore (by simp)]
    exact toNat_byte (by omega)
  · rw [← hsplit, at8, show 170 = 169 + 1 from rfl, getD_part hbefore (by simp)]
    exact toNat_byte (by omega)

theorem Settings.mask_image : at16 x.image 171 = x.mask.toNat := by
  obtain ⟨after, hsplit⟩ := x.mask_prefix
  rw [← hsplit]
  exact at16_part (by rw [List.length_append, Settings.length_body htabs hcomposites]; rfl) x.mask.isLt

theorem Settings.check_image :
    x.image.take 191 = x.fields ∧ x.image.getD 191 0 = checkByte x.fields := by
  have hlen := Settings.length_fields htabs hcomposites
  constructor
  · rw [Settings.image, ← hlen, List.take_left]
  · rw [Settings.image, List.getD_eq_getElem?_getD, List.getElem?_append_right (by omega), hlen]
    rfl

/-- An image with one byte changed does not carry its check byte. -/
theorem Settings.ofImage_changed {i : Nat} {b : Byte} (hi : i < 192) (hb : b ≠ x.image.getD i 0) :
    Settings.ofImage (x.image.set i b) = none := by
  have hlen := Settings.length_fields htabs hcomposites
  rw [Option.eq_none_iff_forall_ne_some]
  intro y hy
  have hcheck := Settings.check_of_ofImage hy
  by_cases hlast : i < 191
  · have hget : x.image.getD i 0 = x.fields.getD i 0 := by
      rw [Settings.image, List.getD_eq_getElem?_getD, List.getElem?_append_left (by omega),
        ← List.getD_eq_getElem?_getD]
    rw [Settings.image, List.set_append_left _ _ (by omega), List.take_left' (by rw [List.length_set, hlen]),
      List.getD_eq_getElem?_getD, List.getElem?_append_right (by rw [List.length_set]; omega), List.length_set,
      hlen] at hcheck
    exact checkByte_set_ne (by omega) (hget ▸ hb) hcheck.symm
  · obtain rfl : i = 191 := by omega
    rw [(Settings.check_image htabs hcomposites).2] at hb
    rw [Settings.image, List.set_append_right _ _ (by omega), List.take_left' hlen, List.getD_eq_getElem?_getD,
      List.getElem?_append_right (by omega), hlen] at hcheck
    exact hb hcheck

end

end

/-- Settles O38: the record part by part, and the check byte of a changed image. -/
theorem settings_image_reads_back : Obligations.settings_image_reads_back := by
  intro x hx
  obtain ⟨hright, hleft, hspacing, hlow, hhigh, hslow, hfast, hbell, hincreasing, htabs, hpositions, hwatch1, hwatch2,
    hcomposites, hallowed, hnodup, hcontrast, hvolume, hmask⟩ := hx
  refine ⟨Settings.length_image htabs hcomposites, ?_,
    fun i b hi hb => Settings.ofImage_changed htabs hcomposites hi hb⟩
  have hformat : Format.ofBytes (x.image.take 13) = some x.format :=
    Format.ofBytes_bytes hright hleft hspacing hlow hhigh hslow hfast hbell
  obtain ⟨hcount, htabsAt⟩ := Settings.tabs_image htabs hpositions
  obtain ⟨hnumber, hcompositesAt⟩ := Settings.composites_image htabs hcomposites
  obtain ⟨hcontrastAt, hvolumeAt⟩ := Settings.panel_image htabs hcomposites hcontrast hvolume
  have hmaskAt := Settings.mask_image htabs hcomposites
  obtain ⟨htake, hcheck⟩ := Settings.check_image htabs hcomposites
  refine Option.bind_eq_some_iff.mpr ⟨_, hformat, Option.bind_eq_some_iff.mpr
    ⟨_, Settings.watch1_image htabs hwatch1, Option.bind_eq_some_iff.mpr
    ⟨_, Settings.watch2_image htabs hwatch2, ?_⟩⟩⟩
  dsimp only
  rw [hcount, htabsAt, hnumber, hcompositesAt, hcontrastAt, hvolumeAt, hmaskAt, htake, hcheck]
  have htabsFit : (x.tabStops.all fun p => decide (p ≤ 1800)) = true :=
    List.all_eq_true.mpr fun p hp => decide_eq_true (hpositions p hp)
  have hcompositesFit : x.composites.all Composite.allowed = true := List.all_eq_true.mpr hallowed
  rw [if_pos ⟨rfl, htabs, hincreasing, htabsFit, hcomposites, hcompositesFit, hnodup, hcontrast, hvolume, hmask⟩,
    BitVec.ofNat_toNat, BitVec.setWidth_eq]

end Sys2Proof.Machine


/-! ## The limits, the encoder and homing, the rail and the heat (O53, O54, O56) -/

namespace Sys2Proof.Machine

variable {s : State}

section Limits

/-! ### Faults (R72, R75) -/

/-- R75: a fault that is taken, field by field. -/
theorem takeFault_of_working (r : FaultReason) (h : s.engine.state.isFaulted = false) : takeFault r s =
    raise .engine 6 ([byte r.code] ++ (faultDetailNow s).bytes)
      { s with
        engine := { s.engine with
          state := .faulted r, homing := none, homingLimit := none, order := none, groupWait := none, feed := none,
          faultDetail := some (faultDetailNow s) }
        impression := { s.impression with heat := s.impression.heat + heatOfCut s true } } := by
  unfold takeFault
  rw [h]
  rfl

theorem takeFault_of_faulted (r : FaultReason) (h : s.engine.state.isFaulted = true) : takeFault r s = s := by
  unfold takeFault
  rw [if_pos h]

/-- R75: the target of the carriage move in progress, by the homing and the order. -/
theorem moveTarget_eq (s : State) : moveTarget s =
    if s.engine.homing = some .carriageReturn then some 0 else match s.engine.order with
      | some p => if p.carriage = none then none else s.strikeQueue.head?.map (·.position)
      | none => none := by
  unfold moveTarget orderTarget
  cases s.engine.order with
  | none => rfl
  | some p => cases hc : p.carriage <;> simp [hc]

theorem faultDetailNow_eq (s : State) : faultDetailNow s =
    { cell := if s.engine.order = none then none else s.strikeQueue.head?.map (·.cell)
      carriage := s.engine.carriage
      target := if s.engine.homing = some .carriageReturn then some 0 else match s.engine.order with
        | some p => if p.carriage = none then none else s.strikeQueue.head?.map (·.position)
        | none => none } := by
  unfold faultDetailNow
  rw [moveTarget_eq]
  cases s.engine.order <;> rfl

/-- R87: what a fault adds to the heat, by the phase of the order. -/
theorem heatOfCut_fault (s : State) : heatOfCut s true = (match s.engine.order with
    | some p => match p.phase with
      | .drive => fun n => min p.drivePulse (n - p.driveStart)
      | .brake => fun _ => p.drivePulse
      | _ => fun _ => 0
    | none => fun _ => 0) s.now := by
  unfold heatOfCut
  cases s.engine.order with
  | none => rfl
  | some p =>
    dsimp only
    cases p.phase <;> rfl

theorem faultEvent_of_working (r : FaultReason) (h : s.engine.state.isFaulted = false) : faultEvent r s =
    chooseFrame (render (raise .engine 6 ([byte r.code] ++ (faultDetailNow s).bytes)
      { s with
        engine := { s.engine with
          state := .faulted r, homing := none, homingLimit := none, order := none, groupWait := none, feed := none,
          faultDetail := some (faultDetailNow s) }
        impression := { s.impression with heat := s.impression.heat + heatOfCut s true } })) :=
  congrArg plainEvent (takeFault_of_working r h)

theorem faultEvent_of_faulted (r : FaultReason) (h : s.engine.state.isFaulted = true) :
    faultEvent r s = chooseFrame (render s) :=
  congrArg plainEvent (takeFault_of_faulted r h)

/-! ### The four limits (R62, R63, R72) -/

theorem carriageDeadline_of_order {p : OrderProgress} {t : Time} (ho : s.engine.order = some p)
    (hp : p.carriage = some t) (hh : s.engine.homing ≠ some .carriageReturn) : carriageDeadline s = some t := by
  unfold carriageDeadline
  rw [if_neg hh, ho]
  exact hp

theorem carriageDeadline_of_homing {t : Time} (hh : s.engine.homing = some .carriageReturn)
    (hl : s.engine.homingLimit = some t) : carriageDeadline s = some t :=
  (if_pos hh).trans hl

theorem exec_carriageMoveLimit_of_deadline {t : Time} (h : carriageDeadline s = some t) :
    exec .carriageMoveLimit s = .next (faultEvent .jamCarriage (s.reach t)) := by
  show execCarriageMoveLimit s = _
  unfold execCarriageMoveLimit
  rw [h]

theorem exec_wheelTurnLimit_of_turn {p : OrderProgress} {t : Time} (ho : s.engine.order = some p)
    (hp : p.wheel = some t) : exec .wheelTurnLimit s = .next (faultEvent .jamWheel (s.reach t)) := by
  show execWheelTurnLimit s = _
  have hdeadline : s.engine.order.bind (·.wheel) = some t := by rw [ho]; exact hp
  unfold execWheelTurnLimit
  rw [hdeadline]

theorem exec_carriageSearchLimit_of_search {t : Time} (hh : s.engine.homing = some .carriageSearch)
    (hl : s.engine.homingLimit = some t) :
    exec .carriageSearchLimit s = .next (faultEvent .jamCarriage (s.reach t)) := by
  show execCarriageSearchLimit s = _
  unfold execCarriageSearchLimit
  rw [if_pos hh, hl]
  rfl

theorem exec_wheelPhaseLimit_of_phase {t : Time}
    (hh : s.engine.homing = some .wheelSearch ∨ s.engine.homing = some .wheelRead)
    (hl : s.engine.homingLimit = some t) :
    exec .wheelPhaseLimit s = .next (faultEvent .jamWheel (s.reach t)) := by
  show execWheelPhaseLimit s = _
  unfold execWheelPhaseLimit
  rw [if_pos hh, hl]
  rfl

/-- Settles O53: each limit is a fault taken at its moment, and a fault is taken or ignored. -/
theorem limits_are_faults_that_keep_the_queue : Obligations.limits_are_faults_that_keep_the_queue := by
  unfold Obligations.limits_are_faults_that_keep_the_queue
  intro s e cut faulted takes
  have takes_of (c : Instr) (r : FaultReason) (code : Byte) (hcode : byte r.code = code) (t : Time)
      (hc : exec c s = .next (faultEvent r (s.reach t))) : takes c r code t := by
    subst hcode
    refine ⟨fun hf => hc.trans (congrArg Host.Outcome.next ?_), fun hf => hc.trans (congrArg Host.Outcome.next ?_)⟩
    · rw [faultEvent_of_working r (s := s.reach t) hf, faultDetailNow_eq, heatOfCut_fault] <;> rfl
    · exact faultEvent_of_faulted r (s := s.reach t) hf
  refine ⟨fun p t ho hp hh => ?_, fun t hh hl => ?_, fun p t ho hp => ?_, fun t hh hl => ?_, fun t hh hl => ?_,
    fun hh => ?_, fun hsearch hread => ?_⟩
  · exact takes_of _ _ _ rfl t (exec_carriageMoveLimit_of_deadline (carriageDeadline_of_order ho hp hh))
  · exact takes_of _ _ _ rfl t (exec_carriageMoveLimit_of_deadline (carriageDeadline_of_homing hh hl))
  · exact takes_of _ _ _ rfl t (exec_wheelTurnLimit_of_turn ho hp)
  · exact takes_of _ _ _ rfl t (exec_carriageSearchLimit_of_search hh hl)
  · exact takes_of _ _ _ rfl t (exec_wheelPhaseLimit_of_phase hh hl)
  · exact if_neg hh
  · exact if_neg (not_or.2 ⟨hsearch, hread⟩)

end Limits

section Encoder

/-! ### The encoder (R61) -/

/-- R61: what an edge of both channels at once does. -/
theorem exec_encoderEdge_of_both {a b : Bool} (ha : a ≠ s.engine.channelA) (hb : b ≠ s.engine.channelB) :
    exec (.encoderEdge a b) s = .next (if s.engine.state = .unhomed ∨ s.engine.state.isFaulted then
        { s with engine := { s.engine with channelA := a, channelB := b } }
      else faultEvent .jamCarriage { s with engine := { s.engine with channelA := a, channelB := b } }) :=
  if_pos ⟨ha, hb⟩

theorem exec_encoderEdge_of_none {a b : Bool} (ha : a = s.engine.channelA) (hb : b = s.engine.channelB) :
    exec (.encoderEdge a b) s = .next s :=
  (if_neg fun h => h.1 ha).trans (if_pos ⟨ha, hb⟩)

/-- R61: an edge of one channel goes to the count, or to the homing travel. -/
theorem exec_encoderEdge_of_single {a b : Bool}
    (h : (a = s.engine.channelA ∧ b ≠ s.engine.channelB) ∨ (a ≠ s.engine.channelA ∧ b = s.engine.channelB)) :
    exec (.encoderEdge a b) s = match s.engine.carriage with
      | some c => .next (countEdge (countsUp s.engine.channelA a b) c
          { s with engine := { s.engine with channelA := a, channelB := b } })
      | none => .next (searchEdge { s with engine := { s.engine with channelA := a, channelB := b } }) := by
  have hboth : ¬(a ≠ s.engine.channelA ∧ b ≠ s.engine.channelB) := by
    rcases h with ⟨ha, -⟩ | ⟨-, hb⟩
    · exact fun g => g.1 ha
    · exact fun g => g.2 hb
  have hnone : ¬(a = s.engine.channelA ∧ b = s.engine.channelB) := by
    rcases h with ⟨-, hb⟩ | ⟨ha, -⟩
    · exact fun g => hb g.2
    · exact fun g => ha g.1
  exact (if_neg hboth).trans (if_neg hnone)

/-- R61: an edge counts up where A leads. -/
theorem countsUp_iff {oldA oldB a b : Bool} (h : (a = oldA ∧ b ≠ oldB) ∨ (a ≠ oldA ∧ b = oldB)) :
    countsUp oldA a b = true ↔ (a ≠ oldA ∧ a ≠ b) ∨ (b ≠ oldB ∧ a = b) := by
  unfold countsUp
  rcases h with ⟨ha, hb⟩ | ⟨ha, hb⟩
  · rw [if_neg (not_not.2 ha), beq_iff_eq]
    exact ⟨fun e => .inr ⟨hb, e⟩, fun e => e.elim (fun e => absurd ha e.1) (·.2)⟩
  · rw [if_pos ha, bne_iff_ne]
    exact ⟨fun e => .inl ⟨ha, e⟩, fun e => e.elim (·.2) fun e => absurd hb e.1⟩

theorem isOvertravel_iff {m : Int} : isOvertravel m = true ↔ m < -24 ∨ 1824 < m :=
  Bool.or_eq_true_iff.trans (or_congr decide_eq_true_iff decide_eq_true_iff)

theorem countEdge_of_within {up : Bool} {n m : Int} (hm : m = if up then n + 1 else n - 1) (hlow : -24 ≤ m)
    (hhigh : m ≤ 1824) : countEdge up n s = { s with engine := { s.engine with carriage := some m } } := by
  subst hm
  exact if_neg fun h => by rcases isOvertravel_iff.1 h with h | h <;> omega

theorem countEdge_of_overtravel {up : Bool} {n m : Int} (hm : m = if up then n + 1 else n - 1)
    (h : m < -24 ∨ 1824 < m) :
    countEdge up n s = faultEvent .overtravel { s with engine := { s.engine with carriage := some m } } := by
  subst hm
  exact if_pos (isOvertravel_iff.2 h)

/-- Settles O54: edges by the channels that changed, and the homing events in and outside their phases. -/
theorem encoder_and_homing_events : Obligations.encoder_and_homing_events := by
  unfold Obligations.encoder_and_homing_events
  refine ⟨?_, ?_⟩
  · intro a b s e seen after single up
    refine ⟨fun ha hb => ⟨fun h => ?_, fun hu hf => ?_⟩, exec_encoderEdge_of_none, ?_, ?_⟩
    · exact (exec_encoderEdge_of_both ha hb).trans (congrArg Host.Outcome.next (if_pos h))
    · refine (exec_encoderEdge_of_both ha hb).trans (congrArg Host.Outcome.next (if_neg ?_))
      rw [hf]
      exact fun h => h.elim hu Bool.false_ne_true
    · intro n m hs hn hm
      have hup : m = if countsUp e.channelA a b then n + 1 else n - 1 := by
        rw [hm]
        exact ite_congr (propext (countsUp_iff hs).symm) (fun _ => rfl) (fun _ => rfl)
      have hstep := exec_encoderEdge_of_single hs
      rw [hn] at hstep
      exact ⟨fun hlow hhigh => hstep.trans (congrArg Host.Outcome.next (countEdge_of_within hup hlow hhigh)),
        fun hover => hstep.trans (congrArg Host.Outcome.next (countEdge_of_overtravel hup hover))⟩
    · intro hs hn counted
      have hstep := exec_encoderEdge_of_single hs
      rw [hn] at hstep
      refine ⟨fun h => hstep.trans (congrArg Host.Outcome.next (if_neg ?_)),
        fun hh ht => hstep.trans (congrArg Host.Outcome.next (if_pos ⟨hh, Nat.lt_succ_of_le ht⟩))⟩
      rintro ⟨hh, ht⟩
      exact h.elim (fun h => h hh) fun h => absurd h (Nat.not_lt.2 (Nat.le_of_lt_succ ht))
  · intro s e after
    refine ⟨fun h => if_pos h, fun h => if_neg h, fun h => if_pos h, fun h => if_pos h, fun h => if_neg h,
      fun u h => if_pos ?_, fun h => if_neg ?_⟩
    · show s.engine.feed.isSome = true
      rw [show s.engine.feed = some u from h]
      rfl
    · show ¬s.engine.feed.isSome = true
      rw [show s.engine.feed = none from h]
      exact Bool.false_ne_true

end Encoder

section Supply

/-! ### The rail (R88 to R91) -/

/-- R89: when a reading leaves a band. -/
theorem leavesBand_iff {b : Band} {r : Nat} : leavesBand b r = true ↔ (match b with
    | .critical => 194 < r
    | .low => r < 186 ∨ 224 < r
    | .nominal => r < 216 ∨ 264 < r
    | .high => r < 256) := by
  cases b with
  | critical => exact decide_eq_true_iff
  | low => exact Bool.or_eq_true_iff.trans (or_congr decide_eq_true_iff decide_eq_true_iff)
  | nominal => exact Bool.or_eq_true_iff.trans (or_congr decide_eq_true_iff decide_eq_true_iff)
  | high => exact decide_eq_true_iff

theorem bandAfter_of_kept {x : Impression} {r : Nat} (hfirst : x.firstPending = false)
    (hleaves : ¬leavesBand x.band r = true) : bandAfter x r = x.band :=
  if_neg fun h => (Bool.or_eq_true_iff.1 h).elim (fun g => absurd (hfirst.symm.trans g) Bool.false_ne_true) hleaves

theorem bandAfter_of_judged {x : Impression} {r : Nat}
    (h : x.firstPending = true ∨ leavesBand x.band r = true) : bandAfter x r = plainBand r :=
  if_pos (Bool.or_eq_true_iff.2 h)

/-- R88: what a measurement records, with the band it gives. -/
def supplyMeasured (s : State) (r : Nat) (b : Band) : State :=
  { s with
    now := max s.now s.impression.measureDue
    impression := { s.impression with
      band := b, firstPending := false, lastReading := some r, measureDue := s.impression.measureDue + 100 } }

theorem exec_supplyMeasurement_of_same {reading : Nat} {b : Band}
    (hb : bandAfter s.impression (min reading 400) = b) (h : b = s.impression.band) :
    exec (.supplyMeasurement reading) s = .next (supplyMeasured s (min reading 400) b) := by
  subst hb
  exact if_pos h

theorem exec_supplyMeasurement_of_change {reading : Nat} {b : Band}
    (hb : bandAfter s.impression (min reading 400) = b) (h : b ≠ s.impression.band) :
    exec (.supplyMeasurement reading) s = .next (textEvent (bandChanged s.impression.band s.effectiveSpeed
      (min reading 400) (supplyMeasured s (min reading 400) b))) := by
  subst hb
  exact if_neg h

/-- R179: an event reaches no more than the report queue. -/
theorem raise_link (k : ReportKind) (r : Nat) (d : List Byte) (s : State) : ∃ l, raise k r d s = { s with link := l } := by
  obtain ⟨-, h⟩ | ⟨-, h⟩ := raise_cases s k r d
  · exact ⟨s.link, h⟩
  · exact ⟨_, h⟩

theorem raise_engine (k : ReportKind) (r : Nat) (d : List Byte) (s : State) :
    (raise k r d s).engine = s.engine := by
  obtain ⟨l, h⟩ := raise_link k r d s
  rw [h]

/-- R80: a supply pause ends with its band; no other state of the engine is touched. -/
theorem bandChanged_of_no_pause {before : Band} {speed reading : Nat}
    (h : ¬(before = .critical ∧ s.engine.state = .paused .supply)) :
    bandChanged before speed reading s = speedChanged speed
      (raise .supply s.impression.band.code [byte before.code, readingByte reading, byte s.effectiveSpeed] s) := by
  unfold bandChanged
  refine if_neg ?_
  rw [speedChanged_eq]
  dsimp only
  rw [raise_engine]
  exact h

theorem bandChanged_of_pause {before : Band} {speed reading : Nat} (hband : before = .critical)
    (h : s.engine.state = .paused .supply) :
    bandChanged before speed reading s = resumeEngine (speedChanged speed
      (raise .supply s.impression.band.code [byte before.code, readingByte reading, byte s.effectiveSpeed] s)) := by
  unfold bandChanged
  refine if_pos ⟨hband, ?_⟩
  rw [speedChanged_eq]
  dsimp only
  rw [raise_engine]
  exact h

theorem readingByte_toNat {r : Nat} (h : r ≤ 255) : (readingByte r).toNat = r := by
  unfold readingByte
  rw [if_pos h]
  exact toNat_byte (by omega)

/-! ### The heat (R93, R94) -/

theorem coolingEnds_iff {x : Impression} :
    coolingEnds x = true ↔ x.coolingLatch = true ∧ x.heat - x.heat / 16 ≤ 1800 :=
  Bool.and_eq_true_iff.trans (and_congr_right fun _ => decide_eq_true_iff)

/-- R93, R94: a decay step, with the latch that it leaves. -/
theorem decayStep_eq {latch : Bool} (h : (s.impression.coolingLatch && !coolingEnds s.impression) = latch)
    (t : Time) : decayStep (s.reach t) =
    { s with
      now := max s.now t
      impression := { s.impression with
        heat := s.impression.heat - s.impression.heat / 16, decayDue := s.impression.decayDue + 1000,
        coolingLatch := latch } } := by
  subst h
  rfl

theorem exec_heatDecay_of_no_start (h : ¬(coolingEnds s.impression ∧ s.engine.groupWait = some .cooling)) :
    exec .heatDecay s = .next (decayStep (s.reach s.impression.decayDue)) :=
  if_neg h

theorem exec_heatDecay_of_start (hends : coolingEnds s.impression = true)
    (h : s.engine.groupWait = some .cooling) :
    exec .heatDecay s = .next (textEvent (setEngine { s.engine with groupWait := none }
      (decayStep (s.reach s.impression.decayDue)))) :=
  if_pos ⟨hends, h⟩

/-- Settles O56: a measurement by whether it changes the band, a decay step by the latch and the wait. -/
theorem supply_and_heat_events : Obligations.supply_and_heat_events := by
  unfold Obligations.supply_and_heat_events
  refine ⟨?_, ?_⟩
  · intro reading s x r plain leaves measured
    refine ⟨fun hf hl => ?_, fun h hp => ?_, fun h hp => ?_, fun speed => ⟨rfl, rfl, rfl, rfl⟩⟩
    · exact exec_supplyMeasurement_of_same (bandAfter_of_kept hf fun g => hl (leavesBand_iff.1 g)) rfl
    · refine (exec_supplyMeasurement_of_same (bandAfter_of_judged (h.imp_right leavesBand_iff.2)) hp).trans ?_
      exact congrArg (fun b => Host.Outcome.next (measured b)) hp
    · have hstep := exec_supplyMeasurement_of_change (bandAfter_of_judged (h.imp_right leavesBand_iff.2)) hp
      intro speed
      obtain ⟨l, htold⟩ := raise_link .supply plain.code [byte x.band.code, readingByte r, byte speed] (measured plain)
      refine ⟨{ measured plain with link := l }, readingByte r, htold.symm, readingByte_toNat, ?_⟩
      intro judged
      have hjudged : speedChanged s.effectiveSpeed (raise .supply plain.code
          [byte x.band.code, readingByte r, byte speed] (measured plain)) = judged := by
        rw [htold]
        exact speedChanged_eq s.effectiveSpeed { measured plain with link := l }
      refine ⟨fun hpause => ?_, fun hband hstate => ?_⟩
      · exact hstep.trans (congrArg (fun v => Host.Outcome.next (textEvent v))
          ((bandChanged_of_no_pause (s := measured plain) hpause).trans hjudged))
      · refine hstep.trans (congrArg (fun v => Host.Outcome.next (textEvent v)) ?_)
        refine (bandChanged_of_pause (s := measured plain) hband hstate).trans ?_
        exact (congrArg resumeEngine hjudged).trans (resumeEngine_eq judged)
  · intro s x heat stepped
    refine ⟨fun hl => ?_, fun hl hh => ?_, fun hl hh hw => ?_, fun hl hh hw => ?_⟩
    · have hends : ¬coolingEnds s.impression = true := fun g =>
        absurd (hl.symm.trans (coolingEnds_iff.1 g).1) Bool.false_ne_true
      refine (exec_heatDecay_of_no_start fun g => hends g.1).trans (congrArg Host.Outcome.next (decayStep_eq ?_ _))
      exact Bool.and_eq_false_iff.2 (.inl hl)
    · have hends : ¬coolingEnds s.impression = true := fun g => absurd (coolingEnds_iff.1 g).2 (Nat.not_le.2 hh)
      refine (exec_heatDecay_of_no_start fun g => hends g.1).trans (congrArg Host.Outcome.next (decayStep_eq ?_ _))
      rw [Bool.eq_false_of_not_eq_true hends]
      exact Bool.and_eq_true_iff.2 ⟨hl, rfl⟩
    · have hends := coolingEnds_iff.2 ⟨hl, hh⟩
      refine (exec_heatDecay_of_no_start fun g => hw g.2).trans (congrArg Host.Outcome.next (decayStep_eq ?_ _))
      rw [hends]
      exact Bool.and_false _
    · have hends := coolingEnds_iff.2 ⟨hl, hh⟩
      refine (exec_heatDecay_of_start hends hw).trans (congrArg (fun v => Host.Outcome.next (textEvent v)) ?_)
      rw [decayStep_eq (latch := false) (by rw [hends]; exact Bool.and_false _)]
      rfl

end Supply

end Sys2Proof.Machine


/-! ## The wheel code read resolves the wheel (O55) -/

namespace Sys2Proof.Machine

variable {s : State}

section

/-- R43, R63: the state in which the code read stands with the mounted wheel, before its resolution. -/
def codeStands (e : Engine) (code : Nat) (w : WheelUnit) (s : State) : State :=
  { s with
    engine := { e with
      state := .identifying, homing := none, homingLimit := none, wheelPosition := some 0 }
    wheel := { w with mounted := code } }

/-- R48: a fetch is abandoned alike before and after the code stands. -/
theorem abandonFetch_codeStands (e : Engine) (code : Nat) (s : State) :
    abandonFetch (codeStands e code s.wheel s) = codeStands e code (abandonFetch s).wheel (abandonFetch s) := by
  unfold abandonFetch
  rw [show (codeStands e code s.wheel s).wheel.fetch = s.wheel.fetch from rfl]
  split <;> rfl

theorem abandonFetch_state (s : State) : (abandonFetch s).memory.state = s.memory.state := by
  unfold abandonFetch
  split <;> rfl

theorem abandonFetch_composer (s : State) : (abandonFetch s).composer = s.composer := by
  unfold abandonFetch
  split <;> rfl

theorem abandonFetch_directoryState (s : State) :
    (abandonFetch s).wheel.directoryState = s.wheel.directoryState := by
  unfold abandonFetch
  split <;> rfl

/-! ### What the Wheel Unit does with the code (R43) -/

theorem wheelRead_of_zero {code : Nat} (h : code = 0) :
    wheelRead code (setEngine (codeStands s.engine code s.wheel s).engine s) = codeStands s.engine code
      { (abandonFetch s).wheel with active := none, glyphMap := [], resolution := .settled } (abandonFetch s) :=
  (if_pos h).trans (congrArg (fun t : State => setWheel { dropActive t.wheel with resolution := .settled } t)
    (abandonFetch_codeStands s.engine code s))

theorem any_activeProfile_iff {w : WheelUnit} {code : Nat} :
    (activeProfile w).any (fun p => p.code == code) = true ↔ ∃ p, activeProfile w = some p ∧ p.code = code := by
  rw [Option.any_eq_true]
  exact exists_congr fun p => and_congr_right fun _ => beq_iff_eq

theorem wheelRead_of_active {code : Nat} {p : Profile} (hcode : code ≠ 0) (hp : activeProfile s.wheel = some p)
    (h : p.code = code) : wheelRead code (setEngine (codeStands s.engine code s.wheel s).engine s) = codeStands s.engine code s.wheel s :=
  (if_neg hcode).trans (if_pos (any_activeProfile_iff.2 ⟨p, hp, h⟩))

theorem wheelRead_of_unsettled {code : Nat} (hcode : code ≠ 0)
    (hother : ∀ q, activeProfile s.wheel = some q → q.code ≠ code)
    (h : s.wheel.mounted = code ∧ s.wheel.resolution ≠ .settled) :
    wheelRead code (setEngine (codeStands s.engine code s.wheel s).engine s) = codeStands s.engine code s.wheel s :=
  (if_neg hcode).trans ((if_neg fun g =>
    have ⟨q, hq, hc⟩ := any_activeProfile_iff.1 g
    hother q hq hc).trans (if_pos h))

/-- R43, R46: any other code abandons the fetch in progress and is resolved anew. -/
theorem wheelRead_of_other {code : Nat} (hcode : code ≠ 0)
    (hother : ∀ q, activeProfile s.wheel = some q → q.code ≠ code)
    (h : ¬(s.wheel.mounted = code ∧ s.wheel.resolution ≠ .settled)) :
    wheelRead code (setEngine (codeStands s.engine code s.wheel s).engine s) = resolveWheel code
      (codeStands s.engine code { (abandonFetch s).wheel with active := none, glyphMap := [] } (abandonFetch s)) :=
  (if_neg hcode).trans ((if_neg fun g =>
    have ⟨q, hq, hc⟩ := any_activeProfile_iff.1 g
    hother q hq hc).trans ((if_neg h).trans
      (congrArg (fun t : State => resolveWheel code (setWheel (dropActive t.wheel) t)) (abandonFetch_codeStands s.engine code s))))

/-! ### The resolution (R46) -/

theorem resolveWheel_of_slot {code slot : Nat} {p : Profile} {f : Pitch} (h : cacheSlotOf s.wheel code = some slot)
    (hp : s.wheel.cache[slot]? = some (some p)) (hf : s.composer.format.pitch = f) : resolveWheel code s =
    raise .wheel 0 [byte p.pitch.code, if p.pitch = f then 0 else 1, 0]
      { s with wheel := { s.wheel with
          active := some slot, recency := touch slot s.wheel.recency, resolution := .settled,
          glyphMap := buildMap p.petals } } := by
  have hactive : activeProfile (activate slot s.wheel) = some p := by
    rw [activate_eq hp]
    exact activeProfile_of_slot (slot := slot) rfl hp
  subst hf
  unfold resolveWheel
  rw [h]
  refine (raiseActive_of_active (s := setWheel (activate slot s.wheel) s) hactive).trans ?_
  rw [activate_eq hp]
  rfl

theorem resolveWheel_of_absent {code : Nat} (h : cacheSlotOf s.wheel code = none)
    (hm : s.memory.state = .absent) : resolveWheel code s =
    raise .wheel 1 [byte code] { s with wheel := { s.wheel with resolution := .unresolved } } := by
  unfold resolveWheel
  rw [h]
  exact if_pos hm

theorem resolveWheel_of_memory {code : Nat} (h : cacheSlotOf s.wheel code = none)
    (hm : s.memory.state ≠ .absent) : resolveWheel code s =
    searchFetch { s with wheel := { s.wheel with
      resolution := .fetching, fetch := some { code := code, progress := .waitingDirectory } } } := by
  unfold resolveWheel
  rw [h]
  exact if_neg hm

theorem searchFetch_of_loading (h : s.wheel.directoryState = .loading) : searchFetch s = s := by
  unfold searchFetch
  split
  next => rw [if_pos h]
  next => rfl

/-- The search of the directory leaves the active profile as it is. -/
theorem searchFetch_active (s : State) : (searchFetch s).wheel.active = s.wheel.active := by
  unfold searchFetch
  split
  next =>
    split
    next => rfl
    next =>
      split
      next =>
        unfold awaitRecords
        obtain ⟨l, h⟩ := raise_link .wheel 1 _ _
        rw [h]
        rfl
      next => rfl
  next => rfl

/-! ### The engine's reports (R60, R63) -/

theorem profileMounted_of_none {w : WheelUnit} (h : w.active = none) : profileMounted w = false := by
  unfold profileMounted activeProfile
  rw [h]
  rfl

/-- R60, R63: code 0 makes two changes of state. -/
theorem exec_wheelCodeRead_of_zero {code : BitVec 6} {t : State} (h : s.engine.homing = some .wheelRead)
    (hcode : code.toNat = 0)
    (hread : wheelRead code.toNat (setEngine (codeStands s.engine code.toNat s.wheel s).engine s) = t) :
    exec (.wheelCodeRead code) s = .next (textEvent (takeFault .noWheel (engineReport t))) := by
  subst hread
  exact (if_pos h).trans (congrArg (fun v => Host.Outcome.next (textEvent v)) (if_pos hcode))

/-- R63: where the profile of the mounted wheel is active, no report of IDENTIFYING is raised. -/
theorem exec_wheelCodeRead_of_mounted {code : BitVec 6} {t : State} (h : s.engine.homing = some .wheelRead)
    (hcode : code.toNat ≠ 0)
    (hread : wheelRead code.toNat (setEngine (codeStands s.engine code.toNat s.wheel s).engine s) = t)
    (hm : profileMounted t.wheel = true) : exec (.wheelCodeRead code) s = .next (textEvent t) := by
  subst hread
  exact (if_pos h).trans (congrArg (fun v => Host.Outcome.next (textEvent v)) ((if_neg hcode).trans (if_pos hm)))

theorem exec_wheelCodeRead_of_unmounted {code : BitVec 6} {t : State} (h : s.engine.homing = some .wheelRead)
    (hcode : code.toNat ≠ 0)
    (hread : wheelRead code.toNat (setEngine (codeStands s.engine code.toNat s.wheel s).engine s) = t)
    (hm : profileMounted t.wheel = false) :
    exec (.wheelCodeRead code) s = .next (textEvent (engineReport t)) := by
  subst hread
  exact (if_pos h).trans (congrArg (fun v => Host.Outcome.next (textEvent v))
    ((if_neg hcode).trans (if_neg (Bool.eq_false_iff.1 hm))))

/-- Settles O55: the code by its cases: none, the active one, one under resolution, one in the cache, any other. -/
theorem wheel_code_read_resolves_the_wheel : Obligations.wheel_code_read_resolves_the_wheel := by
  unfold Obligations.wheel_code_read_resolves_the_wheel
  intro code s c e w there after ends
  refine ⟨fun h => if_neg h, ?_⟩
  intro x hh hx y from_ unsettled other byCode
  have hx : abandonFetch s = x := abandonFetch_of_abandoned hx
  refine ⟨fun hc => ?_, fun p hc hp hpc => ?_, fun ho hu => ?_, fun slot p ho hu hb hslot _ => ?_,
    fun ho hu hnone => ?_⟩
  · refine exec_wheelCodeRead_of_zero (t := from_ { y with active := none, glyphMap := [], resolution := .settled })
      hh hc ?_
    have hzero := wheelRead_of_zero (s := s) hc
    rw [hx] at hzero
    exact hzero
  · refine exec_wheelCodeRead_of_mounted hh hc (wheelRead_of_active hc hp hpc) ?_
    exact any_activeProfile_iff.2 ⟨p, hp, hpc⟩
  · refine exec_wheelCodeRead_of_unmounted hh ho.1 (wheelRead_of_unsettled ho.1 ho.2 hu) ?_
    refine Bool.eq_false_iff.2 fun h => ?_
    obtain ⟨q, hq, hqc⟩ := any_activeProfile_iff.1 h
    exact ho.2 q hq hqc
  · have hread := wheelRead_of_other ho.1 ho.2 hu
    rw [hx] at hread
    have hfirst : slot = 0 ∨ slot = 1 := hslot.imp_right (·.1)
    have hcache : cacheSlotOf y c = some slot := cacheSlotOf_of_holds hfirst ⟨p, hb⟩ fun h1 =>
      hslot.elim (fun h0 => absurd (h0.symm.trans h1) (by decide)) (·.2)
    have hcomposer : x.composer = s.composer := by rw [← hx]; exact abandonFetch_composer s
    have hread := hread.trans (resolveWheel_of_slot (s := from_ { y with active := none, glyphMap := [] }) hcache hb.1
      (congrArg (·.format.pitch) hcomposer))
    refine exec_wheelCodeRead_of_mounted hh ho.1 hread ?_
    obtain ⟨l, h⟩ := raise_link .wheel 0 [byte p.pitch.code, if p.pitch = s.composer.format.pitch then 0 else 1, 0]
      (from_ { y with
        active := some slot, recency := slot :: y.recency.filter (· != slot), resolution := .settled,
        glyphMap := buildMap p.petals })
    refine (congrArg (fun u : State => profileMounted u.wheel) h).trans ?_
    exact any_activeProfile_iff.2 ⟨p, activeProfile_of_slot (slot := slot) rfl hb.1, hb.2⟩
  · have hread := wheelRead_of_other ho.1 ho.2 hu
    rw [hx] at hread
    have hcache : cacheSlotOf y c = none :=
      cacheSlotOf_of_none (fun ⟨p, hp⟩ => hnone 0 p (by decide) hp) (fun ⟨p, hp⟩ => hnone 1 p (by decide) hp)
    have hstate : x.memory.state = s.memory.state := by rw [← hx]; exact abandonFetch_state s
    have hdirectory : y.directoryState = w.directoryState := by
      show x.wheel.directoryState = s.wheel.directoryState
      rw [← hx]
      exact abandonFetch_directoryState s
    refine ⟨fun hm => ?_, fun hm => ?_⟩
    · have hread := hread.trans (resolveWheel_of_absent (s := from_ { y with active := none, glyphMap := [] })
        hcache (hstate.trans hm))
      refine exec_wheelCodeRead_of_unmounted hh ho.1 hread (profileMounted_of_none ?_)
      obtain ⟨l, h⟩ := raise_link .wheel 1 [byte c] (from_
        { y with active := none, glyphMap := [], resolution := .unresolved })
      exact congrArg (·.wheel.active) h
    · have hread := hread.trans (resolveWheel_of_memory (s := from_ { y with active := none, glyphMap := [] })
        hcache (hstate.trans_ne hm))
      intro fetching
      refine ⟨fun hloading => ?_, fun hloaded => ⟨searchFetch fetching, searchFetch_searches rfl ?_, ?_⟩⟩
      · exact exec_wheelCodeRead_of_unmounted hh ho.1
          (hread.trans (searchFetch_of_loading (s := fetching) (hdirectory.trans hloading)))
          (profileMounted_of_none rfl)
      · exact hdirectory.trans_ne hloaded
      · exact exec_wheelCodeRead_of_unmounted hh ho.1 hread
          (profileMounted_of_none (searchFetch_active fetching))
end

end Sys2Proof.Machine


/-! ## The group start judgement and the settling (O48) -/

namespace Sys2Proof.Machine

variable {s : State}

section Settling

/-! ### READY and RUNNING (R60) -/

theorem syncRunning_of_ready (h : s.engine.state = .ready) (hq : s.strikeQueue ≠ []) :
    syncRunning s = { s with engine := { s.engine with state := .running, groupWait := none } } := by
  unfold syncRunning
  rw [h]
  exact if_neg hq

theorem syncRunning_of_running (h : s.engine.state = .running) (hq : s.strikeQueue = []) : syncRunning s =
    { s with engine := { s.engine with state := .ready, groupWait := none, groupStarted := false } } := by
  unfold syncRunning
  rw [h]
  exact if_pos hq

theorem syncRunning_of_other (hready : ¬(s.engine.state = .ready ∧ s.strikeQueue ≠ []))
    (hrunning : ¬(s.engine.state = .running ∧ s.strikeQueue = [])) : syncRunning s = s := by
  unfold syncRunning
  split
  next h => exact if_pos (not_not.1 fun hq => hready ⟨h, hq⟩)
  next h => exact if_neg fun hq => hrunning ⟨h, hq⟩
  next => rfl

/-! ### The judgement (R69, R70, R94) -/

theorem startDue_iff : startDue s = true ↔ s.engine.state = .running ∧ s.engine.order = none ∧
    s.engine.feed = none ∧ s.strikeQueue ≠ [] ∧ s.engine.groupWait = none := by
  simp only [startDue, Bool.and_eq_true, beq_iff_eq, bne_iff_ne, Option.isNone_iff_eq_none, and_assoc]

theorem coolingCalls_iff {x : Impression} : coolingCalls x = true ↔ x.coolingLatch = true ∨ 2400 < x.heat :=
  Bool.or_eq_true_iff.trans (or_congr_right decide_eq_true_iff)

theorem cycleWaits_iff : cycleWaits s = true ↔
    ∃ t, s.engine.cycleTimer = some t ∧ s.now < t + cycleTime s.effectiveSpeed := by
  unfold cycleWaits
  cases s.engine.cycleTimer <;> simp

theorem judgeStart_of_paper (h : s.sensors.isOpen .paper = true) : judgeStart s =
    raise .engine 5 [2] { s with engine := { s.engine with state := .paused .paper } } :=
  (if_pos h).trans (enterState_of_not_faulted rfl s)

theorem judgeStart_of_supply (hpaper : ¬s.sensors.isOpen .paper = true) (h : s.impression.band = .critical) :
    judgeStart s = raise .engine 5 [3] { s with engine := { s.engine with state := .paused .supply } } :=
  (if_neg hpaper).trans ((if_pos h).trans (enterState_of_not_faulted rfl s))

theorem judgeStart_of_cooling (hpaper : ¬s.sensors.isOpen .paper = true) (hband : s.impression.band ≠ .critical)
    (h : coolingCalls s.impression = true) : judgeStart s =
    { s with
      engine := { s.engine with groupWait := some .cooling }
      impression := { s.impression with coolingLatch := true } } :=
  (if_neg hpaper).trans ((if_neg hband).trans ((if_pos h).trans
    (congrArg (fun latch => { s with
      engine := { s.engine with groupWait := some .cooling }
      impression := { s.impression with coolingLatch := latch } }) h)))

theorem judgeStart_of_cycle (hpaper : ¬s.sensors.isOpen .paper = true) (hband : s.impression.band ≠ .critical)
    (hcool : ¬coolingCalls s.impression = true) (h : cycleWaits s = true) : judgeStart s =
    { s with engine := { s.engine with groupWait := some .cycle } } :=
  (if_neg hpaper).trans ((if_neg hband).trans ((if_neg hcool).trans (if_pos h)))

theorem judgeStart_of_start (hpaper : ¬s.sensors.isOpen .paper = true) (hband : s.impression.band ≠ .critical)
    (hcool : ¬coolingCalls s.impression = true) (h : ¬cycleWaits s = true) : judgeStart s =
    startOrder { s with engine := { s.engine with
      groupWait := none, latchedSpeed := some s.effectiveSpeed, cycleTimer := some s.now,
      groupStarted := true } } :=
  (if_neg hpaper).trans ((if_neg hband).trans ((if_neg hcool).trans (if_neg h)))

/-! ### What a start leaves of the engine's state -/

theorem finishStrikeGroup_engine (c : Nat) (s : State) :
    (finishStrikeGroup c s).engine = { s.engine with groupStarted := false } :=
  (noMore_finishStrikeGroup s c).engine

theorem skipOrder_state (o : Order) (kind : StrikeKind) (code : Option Byte) (rest : List Order) (s : State) :
    (skipOrder o kind code rest s).engine.state = s.engine.state := by
  unfold skipOrder
  dsimp only
  split
  · rw [finishStrikeGroup_engine, raise_engine]
    rfl
  · rw [raise_engine]
    rfl

theorem refuseLift_engine (check : LiftCheck) (cell held : Nat) (s : State) :
    (refuseLift check cell held s).engine = s.engine :=
  (NoMore.of_planView (planView_refuseLift s check cell held)).engine

theorem abandonLift_state (check : LiftCheck) (cell : Nat) (s : State) :
    (abandonLift check cell s).engine.state = s.engine.state := by
  unfold abandonLift
  dsimp only
  rw [refuseLift_engine]
  rfl

theorem beginStrike_state (position petal impression : Nat) (s : State) :
    (beginStrike position petal impression s).engine.state = s.engine.state := by
  unfold beginStrike endMoving
  dsimp only [setEngine_engine]
  split
  · rfl
  · rfl

theorem startOrders_state (n : Nat) (s : State) : (startOrders n s).engine.state = s.engine.state := by
  induction n generalizing s with
  | zero => rfl
  | succ n ih =>
    unfold startOrders
    split
    next => rfl
    next o rest hq =>
      split
      next kind code _ _ _ =>
        split
        next =>
          dsimp only
          split
          · exact skipOrder_state o kind code rest s
          · exact (ih _).trans (skipOrder_state o kind code rest s)
        next => exact beginStrike_state _ _ _ s
      next =>
        split
        · exact abandonLift_state _ _ s
        · split
          · exact abandonLift_state _ _ s
          · exact beginStrike_state _ _ _ s
      next => rfl

/-- A judgement leads into no IDENTIFYING. -/
theorem judgeStart_not_identifying (h : s.engine.state = .running) :
    (judgeStart s).engine.state ≠ .identifying := by
  have hstays {t : State} (ht : t.engine.state = .running) : t.engine.state ≠ .identifying := by rw [ht]; decide
  by_cases hpaper : s.sensors.isOpen .paper = true
  · rw [judgeStart_of_paper hpaper, raise_engine]
    exact EngineState.noConfusion
  by_cases hband : s.impression.band = .critical
  · rw [judgeStart_of_supply hpaper hband, raise_engine]
    exact EngineState.noConfusion
  by_cases hcool : coolingCalls s.impression = true
  · rw [judgeStart_of_cooling hpaper hband hcool]
    exact hstays h
  by_cases hcycle : cycleWaits s = true
  · rw [judgeStart_of_cycle hpaper hband hcool hcycle]
    exact hstays h
  · rw [judgeStart_of_start hpaper hband hcool hcycle]
    exact hstays ((startOrders_state _ _).trans h)

/-! ### Settling (R60, R63, R69) -/

theorem settle_of_not_due (h : ¬(s.engine.state = .identifying ∧ profileMounted s.wheel))
    (hdue : ¬startDue (syncRunning (supplyQueue s)) = true) : settle s = syncRunning (supplyQueue s) := by
  rw [settle_eq_loop s h (Nat.lt_succ_self _)]
  exact if_neg hdue

theorem settle_of_due (h : ¬(s.engine.state = .identifying ∧ profileMounted s.wheel))
    (hdue : startDue (syncRunning (supplyQueue s)) = true) :
    settle s = settle (judgeStart (syncRunning (supplyQueue s))) := by
  have hjudged := judgeStart_not_identifying (startDue_iff.1 hdue).1
  generalize hn : settleMeasure s + settleMeasure (judgeStart (syncRunning (supplyQueue s))) + 1 = n
  rw [settle_eq_loop s h (n := n + 1) (by omega), settle_eq_loop _ (fun g => hjudged g.1) (n := n) (by omega)]
  exact if_pos hdue

theorem settle_of_leaving (h : s.engine.state = .identifying ∧ profileMounted s.wheel) : settle s =
    if (settle { s with engine := { s.engine with state := .ready } }).engine.state.isWorking then
      engineReport (settle { s with engine := { s.engine with state := .ready } })
    else settle { s with engine := { s.engine with state := .ready } } := by
  have hready : settle { s with engine := { s.engine with state := .ready } } =
      settleLoop (settleFuel s) { s with engine := { s.engine with state := .ready } } :=
    if_neg fun g => EngineState.noConfusion g.1
  rw [hready]
  exact if_pos h

theorem engineReport_of_state {x : EngineState} (h : s.engine.state = x) (hx : x.isFaulted = false) :
    engineReport s = raise .engine x.code [byte x.reasonCode] s := by
  subst h
  unfold engineReport
  rw [hx]
  rfl

/-- Settles O48: the steps of the judgement, the settling turn by turn, and the expiry of the cycle time. -/
theorem group_start_is_judged_in_five_steps : Obligations.group_start_is_judged_in_five_steps := by
  unfold Obligations.group_start_is_judged_in_five_steps
  intro s e t leaving due
  have hleaving : (s.engine.state = .identifying ∧ profileMounted s.wheel = true) ↔ leaving :=
    and_congr_right fun _ => any_activeProfile_iff
  refine ⟨syncRunning_of_ready, syncRunning_of_running, syncRunning_of_other,
    fun hl hd => settle_of_not_due (mt hleaving.1 hl) (mt startDue_iff.1 hd),
    fun hl hd => settle_of_due (mt hleaving.1 hl) (startDue_iff.2 hd), fun hl => ?_, ?_⟩
  · intro u
    have hsettle := settle_of_leaving (hleaving.2 hl)
    refine ⟨fun hu => ?_, fun hu => ?_, fun hready hrunning => ?_⟩
    · exact hsettle.trans ((if_pos (congrArg EngineState.isWorking hu)).trans (engineReport_of_state hu rfl))
    · exact hsettle.trans ((if_pos (congrArg EngineState.isWorking hu)).trans (engineReport_of_state hu rfl))
    · refine hsettle.trans (if_neg ?_)
      show ¬u.engine.state.isWorking = true
      unfold EngineState.isWorking
      split
      next h => exact absurd h hready
      next h => exact absurd h hrunning
      next => exact Bool.false_ne_true
  · intro paperOut hot waits
    have hpaper : s.sensors.isOpen .paper = true ↔ paperOut := Sensors.isOpen_iff
    refine ⟨fun hp => judgeStart_of_paper (hpaper.2 hp), fun hp => judgeStart_of_supply (mt hpaper.1 hp),
      fun hp hband => ⟨fun hh => ?_, fun hh hw => ?_, fun hh hw => ?_⟩, ⟨rfl, rfl, rfl, rfl⟩, fun x hw hx => ?_,
      fun hw => if_neg hw⟩
    · exact judgeStart_of_cooling (mt hpaper.1 hp) hband (coolingCalls_iff.2 hh)
    · exact judgeStart_of_cycle (mt hpaper.1 hp) hband (mt coolingCalls_iff.1 hh) (cycleWaits_iff.2 hw)
    · exact judgeStart_of_start (mt hpaper.1 hp) hband (mt coolingCalls_iff.1 hh) (mt cycleWaits_iff.1 hw)
    · have hexpiry : cycleExpiry s = x + cycleTime s.effectiveSpeed := by
        rw [cycleExpiry, show s.engine.cycleTimer = some x from hx]
        rfl
      refine (if_pos hw).trans ?_
      rw [hexpiry]
      rfl

end Settling

end Sys2Proof.Machine


/-! ## The group of a cell and the supply of the strike queue (O47) -/

namespace Sys2Proof.Machine

variable {s : State}

section Groups

/-! ### The last order of a group (R65) -/

/-- R65: the last order alone carries the flag. -/
theorem markLast_getElem? (l : List Order) (i : Nat) :
    (markLast l)[i]? = (l[i]?).map fun o => { o with last := decide (i + 1 = l.length) } := by
  induction l using markLast.induct generalizing i with
  | case1 => rfl
  | case2 o => cases i <;> rfl
  | case3 o rest hrest ih =>
    rw [markLast]
    · cases i with
      | zero =>
        have hlast : decide (0 + 1 = (o :: rest).length) = false :=
          decide_eq_false fun h => hrest (List.length_eq_zero_iff.1 (Nat.succ.inj h).symm)
        show some { o with last := false } = some { o with last := decide (0 + 1 = (o :: rest).length) }
        rw [hlast]
      | succ i =>
        rw [List.getElem?_cons_succ, List.getElem?_cons_succ, ih]
        exact congrArg (fun f => Option.map f rest[i]?) (funext fun x => by simp)
    · exact hrest

/-- The orders of a group, in which those of a list without the flag stand. -/
theorem markLast_holds {l : List Order} (h : ∀ o ∈ l, o.last = false) :
    (markLast l).map (fun o => { o with last := false }) = l ∧
      ∀ i o, (markLast l)[i]? = some o → o.last = decide (i + 1 = (markLast l).length) := by
  refine ⟨List.ext_getElem? fun i => ?_, fun i o ho => ?_⟩
  · rw [List.getElem?_map, markLast_getElem?, Option.map_map]
    cases hi : l[i]? with
    | none => rfl
    | some o =>
      have hlast := h o (List.mem_of_getElem? hi)
      show some { o with last := false } = some o
      rw [← hlast]
  · rw [markLast_getElem?, Option.map_eq_some_iff] at ho
    obtain ⟨x, -, rfl⟩ := ho
    rw [markLast_length]

/-! ### The strikes of a cell (R38 to R40) -/

theorem petalClass_eq (p : Profile) (petals : List Nat) :
    petalClass p petals = petals.head?.bind fun q => (p.petals[q]?).map (·.impression) := by
  cases petals <;> rfl

/-- R39: MAIN, BOLD and ACCENT of a cell that strikes `struck`, with an accent of its own. -/
def inkOf (w : WheelUnit) (p : Profile) (c : Cell) (struck : Byte) (accent : Option Byte) : List Order :=
  [strikeOrder w p c.id c.start .main struck] ++
    (if c.bold then [strikeOrder w p c.id (c.start + 1) .bold struck] else []) ++
    (match accent with
      | some a => [strikeOrder w p c.id c.start .accent a]
      | none => [])

theorem inkOrders_of_codes {w : WheelUnit} {p : Profile} {c : Cell} {struck : Byte} {accent : Option Byte}
    (hc : c.isInk = true) (h : struckCodes w c = (struck, accent)) :
    inkOrders w p c = inkOf w p c struck accent := by
  unfold inkOrders
  rw [if_pos hc, h]
  rfl

theorem inkOrders_of_other {w : WheelUnit} {p : Profile} {c : Cell} (hc : ¬c.isInk = true) :
    inkOrders w p c = [] :=
  if_neg hc

theorem struckCodes_of_glyph {w : WheelUnit} {c : Cell} {code : Byte} (hglyph : c.glyph = some code)
    (hk : c.kind ≠ .composite) : struckCodes w c = (code, none) := by
  unfold struckCodes
  rw [hglyph]
  dsimp only [Option.getD_some]
  split
  next h _ => exact absurd h hk
  next => rfl

theorem struckCodes_of_composite {w : WheelUnit} {c : Cell} {code : Byte} {e : Composite}
    (hglyph : c.glyph = some code) (hk : c.kind = .composite) (he : compositeOf w code = some e) :
    struckCodes w c = (e.base, some e.accent) := by
  unfold struckCodes
  rw [hglyph, hk]
  dsimp only [Option.getD_some]
  rw [he]

theorem struckCodes_of_no_entry {w : WheelUnit} {c : Cell} {code : Byte}
    (hglyph : c.glyph = some code) (hk : c.kind = .composite) (he : compositeOf w code = none) :
    struckCodes w c = (code, none) := by
  unfold struckCodes
  rw [hglyph, hk]
  dsimp only [Option.getD_some]
  rw [he]

/-- R39: what a cell strikes, by its entry of the composite table. -/
theorem inkOrders_of_entry {w : WheelUnit} {c : Cell} {code : Byte} {entry : Option Composite} (p : Profile)
    (hglyph : c.glyph = some code) (hk : c.kind = .glyph ∨ c.kind = .composite) :
    entry = (if c.kind = .composite then compositeOf w code else none) →
      inkOrders w p c = inkOf w p c (match entry with | some e => e.base | none => code)
        (entry.map (·.accent)) := by
  intro h
  refine inkOrders_of_codes (Cell.isInk_iff.2 hk) ?_
  by_cases hcomposite : c.kind = .composite
  · rw [if_pos hcomposite] at h
    cases entry with
    | none => exact struckCodes_of_no_entry hglyph hcomposite h.symm
    | some e => exact struckCodes_of_composite hglyph hcomposite h.symm
  · rw [if_neg hcomposite] at h
    subst h
    exact struckCodes_of_glyph hglyph hcomposite

theorem strikeOrder_of_ink {w : WheelUnit} {kind : StrikeKind} (h : kind ≠ .accent) (p : Profile)
    (cell position : Nat) (code : Byte) : strikeOrder w p cell position kind code =
    { cell := cell, position := position, last := false,
      work := .strike kind (some code) (glyphPetals w code)
        ((glyphPetals w code).head?.bind fun q => (p.petals[q]?).map (·.impression)) } := by
  unfold strikeOrder
  dsimp only
  rw [if_neg h, petalClass_eq]

theorem accentOrders_eq (entry : Option Composite) (strike : Byte → Order) :
    (match entry.map (·.accent) with | some a => [strike a] | none => []) =
      match entry with | some e => [strike e.accent] | none => [] := by
  cases entry <;> rfl

theorem inkOf_last {w : WheelUnit} {p : Profile} {c : Cell} {struck : Byte} {accent : Option Byte} {o : Order}
    (h : o ∈ inkOf w p c struck accent) : o.last = false := by
  unfold inkOf at h
  rcases List.mem_append.1 h with h | h
  · rcases List.mem_append.1 h with h | h
    · rw [List.mem_singleton.1 h]
      rfl
    · split at h
      · rw [List.mem_singleton.1 h]
        rfl
      · cases h
  · split at h
    · rw [List.mem_singleton.1 h]
      rfl
    · cases h

theorem underOrders_last {f : Format} {p : Profile} {c : Cell} {u : Nat} {o : Order} (h : o ∈ underOrders f p c u) :
    o.last = false := by
  obtain ⟨k, -, rfl⟩ := List.mem_map.1 h
  rfl

/-- R37: the next cell that is no SPACE. -/
theorem nextAfterSpaces_eq_some_iff {l : List Cell} {d : Cell} : nextAfterSpaces l = some d ↔
    ∃ spaces rest, l = spaces ++ d :: rest ∧ (∀ x ∈ spaces, x.kind = .space) ∧ d.kind ≠ .space := by
  unfold nextAfterSpaces
  induction l with
  | nil => simp
  | cons c l ih =>
    by_cases hc : c.kind = .space
    · rw [List.dropWhile_cons_of_pos (p := fun c : Cell => c.kind == .space) (beq_iff_eq.2 hc), ih]
      constructor
      · rintro ⟨spaces, rest, rfl, hspaces, hd⟩
        exact ⟨c :: spaces, rest, rfl, List.forall_mem_cons.2 ⟨hc, hspaces⟩, hd⟩
      · rintro ⟨_ | ⟨x, spaces⟩, rest, heq, hspaces, hd⟩
        · obtain ⟨rfl, -⟩ := List.cons.inj heq
          exact absurd hc hd
        · obtain ⟨rfl, rfl⟩ := List.cons.inj heq
          exact ⟨spaces, rest, rfl, (List.forall_mem_cons.1 hspaces).2, hd⟩
    · rw [List.dropWhile_cons_of_neg (p := fun c : Cell => c.kind == .space) (mt beq_iff_eq.1 hc)]
      constructor
      · intro h
        obtain rfl := Option.some.inj h
        exact ⟨[], l, rfl, by simp, hc⟩
      · rintro ⟨_ | ⟨x, spaces⟩, rest, heq, hspaces, hd⟩
        · obtain ⟨rfl, -⟩ := List.cons.inj heq
          rfl
        · obtain ⟨rfl, -⟩ := List.cons.inj heq
          exact absurd (hspaces c List.mem_cons_self) hc

theorem nextAfterSpaces_eq_none_iff {l : List Cell} :
    nextAfterSpaces l = none ↔ ∀ x ∈ l, x.kind = .space := by
  unfold nextAfterSpaces
  rw [List.head?_eq_none_iff, List.dropWhile_eq_nil_iff]
  exact forall₂_congr fun _ _ => beq_iff_eq

/-- R37: the nearest cell that is no SPACE is underlined. -/
def nearestUnderlined (l : List Cell) : Prop := ∃ spaces d rest, l = spaces ++ d :: rest ∧
  (∀ x ∈ spaces, x.kind = .space) ∧ (d.kind = .glyph ∨ d.kind = .composite) ∧ d.underline = true

theorem any_nextAfterSpaces_iff {l : List Cell} :
    (nextAfterSpaces l).any (fun d => d.isInk && d.underline) = true ↔ nearestUnderlined l := by
  rw [Option.any_eq_true]
  constructor
  · rintro ⟨d, hd, h⟩
    obtain ⟨spaces, rest, rfl, hspaces, -⟩ := nextAfterSpaces_eq_some_iff.1 hd
    obtain ⟨hink, hunder⟩ := Bool.and_eq_true_iff.1 h
    exact ⟨spaces, d, rest, rfl, hspaces, Cell.isInk_iff.1 hink, hunder⟩
  · rintro ⟨spaces, d, rest, rfl, hspaces, hink, hunder⟩
    refine ⟨d, nextAfterSpaces_eq_some_iff.2 ⟨spaces, rest, rfl, hspaces, ?_⟩,
      Bool.and_eq_true_iff.2 ⟨Cell.isInk_iff.2 hink, hunder⟩⟩
    rcases hink with h | h <;> rw [h] <;> exact CellKind.noConfusion

theorem spaceUnderlined_iff {before after : List Cell} {c : Cell} : spaceUnderlined before after c = true ↔
    c.underline = true ∧ c.advance ≠ 0 ∧ nearestUnderlined before ∧ nearestUnderlined after := by
  unfold spaceUnderlined
  rw [Bool.and_eq_true_iff, Bool.and_eq_true_iff, Bool.and_eq_true_iff, bne_iff_ne, any_nextAfterSpaces_iff,
    any_nextAfterSpaces_iff, and_assoc, and_assoc]

/-! ### The group of a cell (R39) -/

theorem buildGroup_of_plain {f : Format} {w : WheelUnit} {p : Profile} {before after : List Cell} {c : Cell}
    (h : isUnderlined before after c = false) : buildGroup f w p before after c =
    { orders := markLast ((inkOrders w p c ++ []).filter fun o => o.position ≤ 1800), dropped := false } := by
  unfold buildGroup
  rw [h]
  rfl

theorem buildGroup_of_underlined {f : Format} {w : WheelUnit} {p : Profile} {before after : List Cell} {c : Cell}
    {u : Nat} (h : isUnderlined before after c = true) (hu : p.underscore = some u) :
    buildGroup f w p before after c =
    { orders := markLast ((inkOrders w p c ++ underOrders f p c u).filter fun o => o.position ≤ 1800)
      dropped := false } := by
  unfold buildGroup
  rw [h, hu]
  rfl

theorem buildGroup_of_dropped {f : Format} {w : WheelUnit} {p : Profile} {before after : List Cell} {c : Cell}
    (h : isUnderlined before after c = true) (hu : p.underscore = none) : buildGroup f w p before after c =
    { orders := markLast ((inkOrders w p c ++ []).filter fun o => o.position ≤ 1800), dropped := true } := by
  unfold buildGroup
  rw [h, hu]
  rfl

theorem isUnderlined_of_ink {before after : List Cell} {c : Cell} (h : c.kind = .glyph ∨ c.kind = .composite) :
    isUnderlined before after c = c.underline := by
  unfold isUnderlined
  rcases h with h | h <;> rw [h]

theorem isUnderlined_of_space {before after : List Cell} {c : Cell} (h : c.kind = .space) :
    isUnderlined before after c = spaceUnderlined before after c := by
  unfold isUnderlined
  rw [h]

theorem markLast_filter_holds {l : List Order} (h : ∀ o ∈ l, o.last = false) (x : Order → Bool) :
    (markLast (l.filter x)).map (fun o => { o with last := false }) = l.filter x ∧
      ∀ i o, (markLast (l.filter x))[i]? = some o → o.last = decide (i + 1 = (markLast (l.filter x)).length) :=
  markLast_holds fun o ho => h o (List.mem_of_mem_filter ho)

theorem underOffsets_of_one {a u : Nat} (h : min 6 ((a + u - 1) / u) = 1) : underOffsets a u = [0] := if_pos h

theorem underOffsets_of_many {a u : Nat} (h : min 6 ((a + u - 1) / u) ≠ 1) : underOffsets a u =
    (List.range (min 6 ((a + u - 1) / u))).map fun k => k * (a - u) / (min 6 ((a + u - 1) / u) - 1) :=
  if_neg h

end Groups

section Supply

/-! ### The planner at its cursor (R67, R68) -/

/-- R67: the cursor stands at the first cell that is HELD or PENDING. -/
theorem cursorFrom_split {before passed after : List Cell} {c : Cell}
    (hpassed : ∀ d ∈ passed, d.state ≠ .held ∧ d.state ≠ .pending) (hc : c.state = .held ∨ c.state = .pending) :
    cursorFrom before (passed ++ c :: after) = some (passed.reverse ++ before, c, after) := by
  induction passed generalizing before with
  | nil => exact if_pos hc
  | cons d passed ih =>
    obtain ⟨hd, hpassed⟩ := List.forall_mem_cons.1 hpassed
    refine (if_neg (not_or.2 hd)).trans ((ih hpassed).trans ?_)
    rw [List.reverse_cons, List.append_assoc]
    rfl

theorem cursorFrom_of_none {before cells : List Cell} (h : ∀ d ∈ cells, d.state ≠ .held ∧ d.state ≠ .pending) :
    cursorFrom before cells = none := by
  induction cells generalizing before with
  | nil => rfl
  | cons d cells ih =>
    obtain ⟨hd, hcells⟩ := List.forall_mem_cons.1 h
    exact (if_neg (not_or.2 hd)).trans (ih hcells)

theorem planOnce_of_deferred (h : s.correction.deferred ≠ none) : planOnce s = none :=
  if_pos (.inr (Option.isSome_iff_ne_none.2 h))

theorem planOnce_of_free (hw : s.correction.waiting = []) (hd : s.correction.deferred = none) : planOnce s =
    match cursorFrom [] s.line.cells with
    | none => none
    | some (before, c, after) =>
      if c.state = .held ∨ hasLineEnd before then none else planPending before c after s := by
  unfold planOnce
  refine if_neg ?_
  rw [hw, hd]
  exact not_or.2 ⟨not_not_intro rfl, Bool.false_ne_true⟩

/-- R67: at the cursor the planner waits, or acts on a PENDING cell. -/
theorem planOnce_of_cursor {before after : List Cell} {c : Cell} (hw : s.correction.waiting = [])
    (hd : s.correction.deferred = none) (hcells : s.line.cells = before ++ c :: after)
    (hbefore : ∀ d ∈ before, d.state ≠ .held ∧ d.state ≠ .pending) (hc : c.state = .held ∨ c.state = .pending) :
    planOnce s = if c.state = .held ∨ hasLineEnd before.reverse then none
      else planPending before.reverse c after s := by
  rw [planOnce_of_free hw hd, hcells, cursorFrom_split hbefore hc, List.append_nil]

/-! ### What is done at the cursor -/

/-- The state in which a cell has been planned. -/
def planned (id : Nat) (x : CellState) (dropped : Bool) (s : State) : State :=
  modifyCell id (fun d => { d with state := x, underlineDropped := d.underlineDropped || dropped }) s

theorem setCellState_eq_planned (id : Nat) (x : CellState) (s : State) :
    setCellState id x s = planned id x false s := by
  unfold setCellState planned
  congr 1
  funext d
  rw [Bool.or_false]

theorem handleGroup_of_empty {b : Built} {c : Cell} (h : b.orders = []) :
    handleGroup b c s = some (planned c.id .struck b.dropped s) :=
  if_pos h

theorem handleGroup_of_room {b : Built} {c : Cell} (h : b.orders ≠ []) (hroom : b.orders.length ≤ queueRoom s) :
    handleGroup b c s = some (planned c.id .ordered b.dropped (addAtTail b.orders s)) :=
  (if_neg h).trans (if_pos hroom)

theorem handleGroup_of_full {b : Built} {c : Cell} (h : queueRoom s < b.orders.length) :
    handleGroup b c s = none :=
  (if_neg fun hnil => by rw [hnil] at h; exact absurd h (Nat.not_lt_zero _)).trans (if_neg (Nat.not_le.2 h))

theorem buildGroup_of_plain_space {f : Format} {w : WheelUnit} {p : Profile} {before after : List Cell} {c : Cell}
    (hk : c.kind = .space) (h : spaceUnderlined before after c = false) :
    buildGroup f w p before after c = { orders := [], dropped := false } := by
  rw [buildGroup_of_plain ((isUnderlined_of_space hk).trans h), inkOrders_of_other]
  · rfl
  · rw [Cell.isInk_iff, hk]
    exact fun h => h.elim CellKind.noConfusion CellKind.noConfusion

theorem planPending_of_passed {before after : List Cell} {c : Cell}
    (h : c.kind = .tab ∨ c.kind = .space ∧ (c.underline = false ∨ c.advance = 0)) :
    planPending before c after s = some (planned c.id .struck false s) := by
  rw [← setCellState_eq_planned]
  unfold planPending
  rcases h with h | ⟨h, hplain⟩
  · rw [h]
  · rw [h]
    exact if_pos hplain

theorem planPending_of_lineEnd {before after : List Cell} {c : Cell} (h : c.kind = .lineEnd) :
    planPending before c after s = handleGroup { orders := returnGroup s.line c, dropped := false } c s := by
  unfold planPending
  rw [h]

theorem planPending_of_open_space {before after : List Cell} {c : Cell} (hk : c.kind = .space)
    (hc : c.underline = true ∧ c.advance ≠ 0) (h : ∀ d ∈ after, d.kind = .space) :
    planPending before c after s = none := by
  have hplain : ¬(c.underline = false ∨ c.advance = 0) :=
    not_or.2 ⟨fun g => absurd (g.symm.trans hc.1) Bool.false_ne_true, hc.2⟩
  unfold planPending
  rw [hk]
  refine (if_neg hplain).trans ?_
  rw [nextAfterSpaces_eq_none_iff.2 h]

/-- R67: a cell that has a group waits for the active profile, and its group for room. -/
theorem planPending_of_group {before after : List Cell} {c : Cell} (h : c.kind = .glyph ∨ c.kind = .composite ∨
      (c.kind = .space ∧ c.underline = true ∧ c.advance ≠ 0) ∧ ∃ d ∈ after, d.kind ≠ .space) :
    planPending before c after s = match activeProfile s.wheel with
      | none => none
      | some p => handleGroup (buildGroup s.composer.format s.wheel p before after c) c s := by
  unfold planPending
  rcases h with h | h | ⟨⟨h, hunder, hadvance⟩, d, hd, hdk⟩
  · rw [h] <;> rfl
  · rw [h] <;> rfl
  · have hplain : ¬(c.underline = false ∨ c.advance = 0) :=
      not_or.2 ⟨fun g => absurd (g.symm.trans hunder) Bool.false_ne_true, hadvance⟩
    rw [h]
    refine (if_neg hplain).trans ?_
    cases hnext : nextAfterSpaces after with
    | none => exact absurd (nextAfterSpaces_eq_none_iff.1 hnext d hd) hdk
    | some _ =>
      cases hp : activeProfile s.wheel with
      | none => rfl
      | some p =>
        refine (if_neg (Option.some_ne_none p)).trans ?_
        by_cases hs : spaceUnderlined before after c = true
        · exact if_pos hs
        · refine (if_neg hs).trans ?_
          dsimp only
          rw [buildGroup_of_plain_space h (Bool.eq_false_iff.2 hs), handleGroup_of_empty rfl,
            setCellState_eq_planned]

/-- Settles O47: the group of a cell by its kind, and the supply by the waiting lifts and the cell at the cursor. -/
theorem group_of_a_cell_holds_its_strikes_in_order : Obligations.group_of_a_cell_holds_its_strikes_in_order := by
  unfold Obligations.group_of_a_cell_holds_its_strikes_in_order
  refine ⟨?_, ?_⟩
  · intro f w p before after c code b order width under holds
    have hunder (u : Nat) : under u = underOrders f p c u := by
      show (underOffsets c.advance (width u)).map _ = (underOffsets c.advance (underlineWidth f p u)).map _
      rw [show underlineWidth f p u = width u from by
        unfold underlineWidth
        show f.pitch.advance.getD _ = (match f.pitch with
          | .ten => 12 | .twelve => 10 | .fifteen => 8
          | .proportional => ((p.petals[u]?).map (·.width)).getD 0)
        cases f.pitch <;> rfl]
    have holds_of (l : List Order) (hb : b.orders = markLast (l.filter fun o => o.position ≤ 1800))
        (hl : ∀ o ∈ l, o.last = false) : holds l := by
      show b.orders.map _ = _ ∧ ∀ i o, b.orders[i]? = some o → o.last = decide (i + 1 = b.orders.length)
      rw [hb]
      exact markLast_filter_holds hl _
    refine ⟨fun hglyph hk => ?_, fun hk => ?_, fun a u _ _ => ⟨underOffsets_of_one, underOffsets_of_many⟩,
      fun l r x hk hr hx => ?_⟩
    · intro entry struck impression ink
      have hcodes := inkOrders_of_entry (w := w) (entry := entry) p hglyph hk rfl
      have hink : inkOrders w p c = ink := by
        rw [hcodes]
        unfold inkOf
        rw [strikeOrder_of_ink StrikeKind.noConfusion, strikeOrder_of_ink StrikeKind.noConfusion]
        exact congrArg (List.append _) (accentOrders_eq entry fun a => strikeOrder w p c.id c.start .accent a)
      have hlast {o : Order} (ho : o ∈ ink) : o.last = false := by
        rw [← hink, hcodes] at ho
        exact inkOf_last ho
      have hunderlined := isUnderlined_of_ink (before := before) (after := after) hk
      cases hc : c.underline with
      | false =>
        have hb : b = _ := buildGroup_of_plain (hunderlined.trans hc)
        rw [hink] at hb
        refine ⟨holds_of _ (congrArg (·.orders) hb) fun o ho => ?_, congrArg (·.dropped) hb⟩
        exact hlast (List.append_nil ink ▸ ho)
      | true =>
        cases hu : p.underscore with
        | none =>
          have hb : b = _ := buildGroup_of_dropped (hunderlined.trans hc) hu
          rw [hink] at hb
          refine ⟨holds_of _ (congrArg (·.orders) hb) fun o ho => ?_, congrArg (·.dropped) hb⟩
          exact hlast (List.append_nil ink ▸ ho)
        | some u =>
          have hb : b = _ := buildGroup_of_underlined (hunderlined.trans hc) hu
          rw [hink, ← hunder u] at hb
          refine ⟨holds_of _ (congrArg (·.orders) hb) fun o ho => ?_, congrArg (·.dropped) hb⟩
          rcases List.mem_append.1 ho with ho | ho
          · exact hlast ho
          · exact underOrders_last (hunder u ▸ (show o ∈ under u from ho))
    · intro nearest underlined
      have hiff : isUnderlined before after c = true ↔ underlined := by
        rw [isUnderlined_of_space hk]
        exact spaceUnderlined_iff
      have hink : inkOrders w p c = [] := inkOrders_of_other fun h => by
        rcases Cell.isInk_iff.1 h with h | h <;> exact absurd (hk.symm.trans h) CellKind.noConfusion
      refine ⟨fun hn => ?_, fun hu hp => ?_, fun u hu hp => ?_⟩
      · have hb : b = _ := buildGroup_of_plain (Bool.eq_false_iff.2 (mt hiff.1 hn))
        rw [hink] at hb
        exact hb
      · have hb : b = _ := buildGroup_of_dropped (hiff.2 hu) hp
        rw [hink] at hb
        exact hb
      · have hb : b = _ := buildGroup_of_underlined (hiff.2 hu) hp
        rw [hink, ← hunder u] at hb
        refine ⟨holds_of _ (congrArg (·.orders) hb) fun o ho => ?_, congrArg (·.dropped) hb⟩
        exact underOrders_last (hunder u ▸ (show o ∈ under u from ho))
    · have hunits : ((l.paper.bind (·.ended)).map (·.spacing)).getD 8 = x.spacing := by
        rw [hr]
        show ((r.ended).map (·.spacing)).getD 8 = x.spacing
        rw [hx]
        rfl
      unfold returnGroup
      rw [hunits]
  · intro s queue room marked waits
    have hplanned {t : State} {id : Nat} {x : CellState} {dropped : Bool} (h : t.line = s.line) :
        planned id x dropped t = marked id x dropped t := by
      show planned id x dropped t = { t with line := { s.line with cells := _ } }
      rw [← h]
      rfl
    refine ⟨fun g rest hw => ⟨fun hfull => supplyQueue_full s hw (Nat.not_le.2 hfull), fun hfits => ?_⟩,
      fun hw hd => supplyQueue_waits s (planOnce_of_deferred hd) hw, fun hw hd => ⟨fun hall => ?_, ?_⟩⟩
    · rw [supplyQueue_lift s hw hfits, setCellState_eq_planned]
      exact congrArg supplyQueue (hplanned rfl)
    · refine supplyQueue_waits s ?_ hw
      rw [planOnce_of_free hw hd, cursorFrom_of_none hall]
    · intro before c after hcells hbefore
      have hcursor := planOnce_of_cursor hw hd hcells hbefore
      refine ⟨fun hc => ?_, fun hc hline => ?_, fun hc hline => ?_⟩
      · exact supplyQueue_waits s ((hcursor (.inl hc)).trans (if_pos (.inl hc))) hw
      · refine supplyQueue_waits s ((hcursor (.inr hc)).trans (if_pos (.inr (hasLineEnd_iff.2 ?_)))) hw
        obtain ⟨d, hd, hdk⟩ := hline
        exact ⟨d, List.mem_reverse.2 hd, hdk⟩
      · have hplan : planOnce s = planPending before.reverse c after s := by
          refine (hcursor (.inr hc)).trans (if_neg (not_or.2 ⟨?_, fun h => ?_⟩))
          · rw [hc]
            exact CellState.noConfusion
          · obtain ⟨d, hd, hdk⟩ := hasLineEnd_iff.1 h
            exact hline d (List.mem_reverse.1 hd) hdk
        intro passes adds plainSpace underSpace
        have waits_of (h : planPending before.reverse c after s = none) : waits :=
          supplyQueue_waits s (hplan.trans h) hw
        have passes_of (dropped : Bool)
            (h : planPending before.reverse c after s = some (planned c.id .struck dropped s)) : passes dropped := by
          have hsupply := supplyQueue_planOnce s (hplan.trans h) hw
          rw [hplanned rfl] at hsupply
          exact hsupply
        have adds_of (b : Built) (h : planPending before.reverse c after s = handleGroup b c s) :
            adds b.orders b.dropped := by
          refine ⟨fun hnil => passes_of _ (h.trans (handleGroup_of_empty hnil)), fun hcons hroom => ?_,
            fun hfull => waits_of (h.trans (handleGroup_of_full hfull))⟩
          have hsupply := supplyQueue_planOnce s (hplan.trans (h.trans (handleGroup_of_room hcons hroom))) hw
          rw [hplanned (t := addAtTail b.orders s) rfl] at hsupply
          exact hsupply
        refine ⟨fun h => passes_of false (planPending_of_passed h),
          fun h => adds_of { orders := returnGroup s.line c, dropped := false } (planPending_of_lineEnd h),
          fun hspace hafter => waits_of (planPending_of_open_space hspace.1 hspace.2 hafter), fun h => ?_⟩
        have hgroup := planPending_of_group (s := s) (before := before.reverse) h
        refine ⟨fun hp => waits_of ?_, fun p hp => adds_of _ ?_⟩
        · rw [hgroup, hp]
        · rw [hgroup, hp]

end Supply

end Sys2Proof.Machine


/-! ## What the removal of cells reaches, part by part -/

namespace Sys2Proof.Machine

variable {s : State}

section SpellingOnly

/-- From `s` to `t` no more has changed than the reports, the Spelling Unit and the memory's requests. -/
def OnlySpelling (s t : State) : Prop := ∃ l sp m, t = { s with link := l, spelling := sp, memory := m }

theorem OnlySpelling.refl (s : State) : OnlySpelling s s := ⟨s.link, s.spelling, s.memory, rfl⟩

theorem OnlySpelling.trans {s t u : State} (h : OnlySpelling s t) (g : OnlySpelling t u) : OnlySpelling s u := by
  obtain ⟨l, sp, m, rfl⟩ := h
  obtain ⟨l', sp', m', rfl⟩ := g
  exact ⟨l', sp', m', rfl⟩

theorem onlySpelling_setSpelling (sp : SpellingUnit) (s : State) : OnlySpelling s { s with spelling := sp } :=
  ⟨s.link, sp, s.memory, rfl⟩

theorem onlySpelling_raise (k : ReportKind) (r : Nat) (d : List Byte) (s : State) :
    OnlySpelling s (raise k r d s) := by
  obtain ⟨l, h⟩ := raise_link k r d s
  exact ⟨l, s.spelling, s.memory, h⟩

theorem onlySpelling_modifyWord (id : Nat) (f : Word → Word) (s : State) : OnlySpelling s (modifyWord id f s) :=
  onlySpelling_setSpelling _ s

theorem onlySpelling_abandonLookup (s : State) : OnlySpelling s (abandonLookup s) :=
  ⟨s.link, _, _, rfl⟩

theorem onlySpelling_closeOpenWord (s : State) : OnlySpelling s (closeOpenWord s) :=
  onlySpelling_setSpelling _ s

theorem onlySpelling_classify (id : Nat) (s : State) : OnlySpelling s (classify id s) := by
  unfold classify
  split
  next => exact .refl s
  next =>
    dsimp only
    split
    next => exact onlySpelling_modifyWord ..
    next =>
      split
      next => exact ⟨s.link, _, s.memory, rfl⟩
      next => exact (onlySpelling_modifyWord _ _ s).trans (onlySpelling_raise ..)
      next => exact ⟨s.link, _, s.memory, rfl⟩
      next => exact onlySpelling_modifyWord _ _ s

theorem onlySpelling_completeOpenWord (s : State) : OnlySpelling s (completeOpenWord s) := by
  unfold completeOpenWord
  split
  next => exact onlySpelling_closeOpenWord s
  next => exact (onlySpelling_closeOpenWord s).trans (onlySpelling_classify _ _)
  next => exact onlySpelling_closeOpenWord s

theorem onlySpelling_spellLineEnd (s : State) : OnlySpelling s (spellLineEnd s) := by
  unfold spellLineEnd
  split
  · exact onlySpelling_completeOpenWord s
  · exact .refl s

theorem onlySpelling_abandonIf (b : Bool) (s : State) :
    OnlySpelling s (if b then abandonLookup s else s) := by
  cases b
  · exact .refl s
  · exact onlySpelling_abandonLookup s

theorem onlySpelling_removeWordRecord (id : Nat) (s : State) : OnlySpelling s (removeWordRecord id s) := by
  unfold removeWordRecord
  dsimp only
  refine OnlySpelling.trans ?_ (onlySpelling_abandonIf _ _)
  split
  · exact ⟨s.link, _, s.memory, rfl⟩
  · exact ⟨s.link, _, s.memory, rfl⟩

theorem onlySpelling_reopenWord (id : Nat) (s : State) : OnlySpelling s (reopenWord id s) := by
  unfold reopenWord
  dsimp only
  refine OnlySpelling.trans ?_ (onlySpelling_abandonIf _ _)
  exact ⟨s.link, _, s.memory, rfl⟩

theorem onlySpelling_wordLoses (byHeld : Bool) (id : Nat) (s : State) : OnlySpelling s (wordLoses byHeld id s) := by
  unfold wordLoses
  split
  next => exact .refl s
  next =>
    split
    next => exact onlySpelling_removeWordRecord id s
    next =>
      dsimp only
      split
      next => exact onlySpelling_modifyWord _ _ s
      next =>
        have hreopened (f : Word → Word) : OnlySpelling s (reopenWord id (modifyWord id f s)) :=
          (onlySpelling_modifyWord id f s).trans (onlySpelling_reopenWord id _)
        split
        next => exact (hreopened _).trans ⟨_, _, _, rfl⟩
        next => exact (hreopened _).trans (onlySpelling_classify id _)

theorem onlySpelling_shortenRun (gone : List Nat) (s : State) : OnlySpelling s (shortenRun gone s) := by
  unfold shortenRun
  split
  next =>
    split
    next => exact onlySpelling_closeOpenWord s
    next => exact onlySpelling_setSpelling _ s
  next => exact .refl s
  next => exact .refl s

theorem onlySpelling_foldl {α : Type} {f : State → α → State} (h : ∀ s a, OnlySpelling s (f s a)) (l : List α) :
    ∀ s, OnlySpelling s (l.foldl f s) := by
  induction l with
  | nil => exact .refl
  | cons a l ih => exact fun s => (h s a).trans (ih _)

theorem onlySpelling_spellRemoved (byHeld : Bool) (removed : List Cell) (s : State) :
    OnlySpelling s (spellRemoved byHeld removed s) := by
  unfold spellRemoved
  refine OnlySpelling.trans ?_ (onlySpelling_foldl (fun s id => onlySpelling_wordLoses byHeld id s) _ _)
  exact OnlySpelling.trans ⟨s.link, _, s.memory, rfl⟩ (onlySpelling_shortenRun _ _)

end SpellingOnly

section Removal

/-- R9, R12: the cells left, their fixed parts as they were, and the parts of the state that follow. -/
theorem removeCells_parts (byHeld : Bool) (gone : Cell → Bool) (s : State) : ∃ l sp m cells,
    removeCells byHeld gone s =
      { s with
        link := l, spelling := sp, memory := m
        line := { s.line with
          cells := cells, releaseMark := markAfterRemoval gone s.line.cells s.line.releaseMark }
        composer := { s.composer with openRun := s.composer.openRun.filter fun c =>
          !((s.line.cells.filter gone).map (·.id)).contains c }
        display := correctWindow (windowAfterRemoval gone s.line.cells s.display.windowStart) s } ∧
      cells.map fixedPart = (s.line.cells.filter fun c => !gone c).map fixedPart := by
  obtain ⟨l, sp, m, h⟩ := onlySpelling_spellRemoved byHeld (s.line.cells.filter gone) (dropCells gone s)
  unfold removeCells
  rw [h]
  unfold releaseAdvance
  split
  · exact ⟨l, sp, m, _, rfl, rfl⟩
  · exact ⟨l, sp, m, _, rfl, fixedPart_advanceTo ..⟩

/-- The ids of the cells that leave are those asked for. -/
theorem ids_filter_contains {ids : List Nat} {cells : List Cell} (h : ∀ i ∈ ids, ∃ c ∈ cells, c.id = i) (i : Nat) :
    ((cells.filter fun c => ids.contains c.id).map (·.id)).contains i = ids.contains i := by
  rw [Bool.eq_iff_iff, List.contains_iff_mem, List.contains_iff_mem, List.mem_map]
  constructor
  · rintro ⟨c, hc, rfl⟩
    exact List.contains_iff_mem.1 (List.mem_filter.1 hc).2
  · intro hi
    obtain ⟨c, hc, rfl⟩ := h i hi
    exact ⟨c, List.mem_filter.2 ⟨hc, List.contains_iff_mem.2 hi⟩, rfl⟩

end Removal

section MappedCells

/-! ### A cell list whose cells change in place -/

variable {cells : List Cell} {f : Cell → Cell}

theorem findCell_map (hid : ∀ c, (f c).id = c.id) (id : Nat) :
    findCell (cells.map f) id = (findCell cells id).map f := by
  unfold findCell
  rw [List.find?_map]
  exact congrArg (fun p => Option.map f (cells.find? p)) (funext fun c => congrArg (· == id) (hid c))

theorem endedCells_map (hkind : ∀ c, (f c).kind = c.kind) : endedCells (cells.map f) = (endedCells cells).map f := by
  have hindex : lineEndIndex (cells.map f) = lineEndIndex cells := by
    unfold lineEndIndex
    rw [List.findIdx?_map]
    exact congrArg (fun p => cells.findIdx? p) (funext fun c => congrArg (· == CellKind.lineEnd) (hkind c))
  unfold endedCells
  rw [hindex]
  cases lineEndIndex cells with
  | none => rfl
  | some i => exact List.map_take.symm

theorem any_id_map (hid : ∀ c, (f c).id = c.id) (id : Nat) (l : List Cell) :
    ((l.map f).any fun c => c.id == id) = l.any fun c => c.id == id := by
  rw [List.any_map]
  exact congrArg (fun p => l.any p) (funext fun c => congrArg (· == id) (hid c))

/-- A cell's place is found by its id, for ids are unique. -/
theorem findCell_of_mem {c : Cell} (hn : (cells.map (·.id)).Nodup) (hc : c ∈ cells) :
    findCell cells c.id = some c := by
  obtain ⟨before, after, rfl⟩ := List.append_of_mem hc
  exact findCell_split (id_ne_of_nodup hn)

end MappedCells

end Sys2Proof.Machine


/-! ## Orders start, are skipped or abandoned; the end of a cell's strikes (O49) -/

namespace Sys2Proof.Machine

variable {s : State}

section Start

/-! ### The order at the head starts (R71, R73, R74) -/

/-- R71, R72: what a STRIKE or LIFT order in MOVING stands with. -/
def strikeProgress (position petal impression : Nat) (s : State) : OrderProgress :=
  { phase := .moving, petal := some petal, impression := impression, carriage := moveLimit s position,
    wheel := turnLimit s petal, platen := false, phaseEnd := none, drivePulse := 0, brakePulse := 0,
    driveStart := s.now }

theorem beginStrike_of_still {position petal impression : Nat} (hfar : moveDistance s position = 0)
    (hturn : travel (s.engine.wheelPosition.getD 0) petal = 0) : beginStrike position petal impression s =
    { s with engine := { s.engine with
        groupStarted := true
        order := some { strikeProgress position petal impression s with
          phase := .settling, carriage := none, wheel := none, phaseEnd := some (s.now + 20) } } } := by
  have hcarriage : moveLimit s position = none := if_pos hfar
  have hwheel : turnLimit s petal = none := if_pos hturn
  unfold beginStrike strikeProgress
  rw [hcarriage, hwheel]
  rfl

theorem beginStrike_of_motion {position petal impression : Nat}
    (h : ¬(moveDistance s position = 0 ∧ travel (s.engine.wheelPosition.getD 0) petal = 0)) :
    beginStrike position petal impression s = { s with engine := { s.engine with
      groupStarted := true, order := some (strikeProgress position petal impression s) } } := by
  refine if_neg ?_
  rintro ⟨-, hcarriage, hwheel, -⟩
  refine h ⟨?_, ?_⟩
  · exact not_not.1 fun hfar => absurd ((if_neg hfar).symm.trans hcarriage) (Option.some_ne_none _)
  · exact not_not.1 fun hturn => absurd ((if_neg hturn).symm.trans hwheel) (Option.some_ne_none _)

section
variable {o : Order} {rest : List Order} (hq : s.strikeQueue = o :: rest)
include hq

theorem startOrder_cons : startOrder s = match o.work with
    | .strike kind code _ _ =>
      match choosePetal (s.engine.wheelPosition.getD 0) (candidatesNow s.wheel kind code) with
      | none =>
        if o.last then skipOrder o kind code rest s else startOrders rest.length (skipOrder o kind code rest s)
      | some q => beginStrike o.position q (classNow s.wheel kind q) s
    | .lift _ petal wheel impression =>
      if wheel ≠ s.wheel.mounted then abandonLift (.wheelChanged wheel) o.cell s
      else if s.sensors.isOpen .tape then abandonLift .tapeOut o.cell s
      else beginStrike o.position petal impression s
    | .returnLine _ => beginReturn o.position s := by
  have hlength : s.strikeQueue.length = rest.length + 1 := congrArg List.length hq
  unfold startOrder
  rw [hlength]
  conv_lhs => unfold startOrders
  rw [hq] <;> rfl

theorem startOrder_of_chosen {kind : StrikeKind} {code : Option Byte} {cs : List Nat} {cl : Option Nat} {q : Nat}
    (hw : o.work = .strike kind code cs cl)
    (h : choosePetal (s.engine.wheelPosition.getD 0) (candidatesNow s.wheel kind code) = some q) :
    startOrder s = beginStrike o.position q (classNow s.wheel kind q) s := by
  rw [startOrder_cons hq, hw]
  dsimp only
  rw [h]

theorem startOrder_of_skipped {kind : StrikeKind} {code : Option Byte} {cs : List Nat} {cl : Option Nat}
    (hw : o.work = .strike kind code cs cl) (h : candidatesNow s.wheel kind code = []) :
    startOrder s =
      if o.last then skipOrder o kind code rest s else startOrders rest.length (skipOrder o kind code rest s) := by
  rw [startOrder_cons hq, hw]
  dsimp only
  rw [h]
  rfl

theorem startOrder_of_lift {kind : StrikeKind} {petal wheel impression : Nat}
    (hw : o.work = .lift kind petal wheel impression) : startOrder s =
      if wheel ≠ s.wheel.mounted then abandonLift (.wheelChanged wheel) o.cell s
      else if s.sensors.isOpen .tape then abandonLift .tapeOut o.cell s
      else beginStrike o.position petal impression s := by
  rw [startOrder_cons hq, hw]

theorem startOrder_of_return {units : Nat} (hw : o.work = .returnLine units) :
    startOrder s = beginReturn o.position s := by
  rw [startOrder_cons hq, hw]

end

/-! ### Candidates and class (R40, R42, R56) -/

theorem candidatesNow_eq (w : WheelUnit) (kind : StrikeKind) (code : Option Byte) :
    candidatesNow w kind code = match kind, code with
      | .under, _ => (match activeProfile w with
        | some p => p.underscore.toList
        | none => [])
      | _, some b => glyphPetals w b
      | _, none => [] := by
  cases kind with
  | under =>
    show ((activeProfile w).bind (·.underscore)).toList = _
    cases activeProfile w <;> rfl
  | main => cases code <;> rfl
  | bold => cases code <;> rfl
  | accent => cases code <;> rfl

theorem classNow_of_plain {w : WheelUnit} {kind : StrikeKind} (h : kind = .accent ∨ kind = .under) (q : Nat) :
    classNow w kind q = 1 := by
  rcases h with rfl | rfl <;> rfl

theorem classNow_of_petal {w : WheelUnit} {kind : StrikeKind} {q : Nat} {p : Profile} {x : PetalEntry}
    (h : kind = .main ∨ kind = .bold) (hp : activeProfile w = some p) (hx : p.petals[q]? = some x) :
    classNow w kind q = x.impression := by
  have hclass : (((activeProfile w).bind fun p => (p.petals[q]?).map (·.impression)).getD 1) = x.impression := by
    rw [hp]
    show ((p.petals[q]?).map (·.impression)).getD 1 = x.impression
    rw [hx]
    rfl
  rcases h with rfl | rfl <;> exact hclass

/-! ### An order is skipped (R56) -/

/-- R56: the order at the head leaves the queue, its cell flagged, with WHEEL (SKIPPED). -/
def orderSkipped (o : Order) (kind : StrikeKind) (code : Option Byte) (rest : List Order) (s : State) : State :=
  raise .wheel 3 [byte o.cell, code.getD 0xFF, byte kind.code]
    { s with
      strikeQueue := rest
      engine := { s.engine with groupStarted := true }
      line := { s.line with cells := s.line.cells.map fun d =>
        if d.id = o.cell then
          (if kind = .under then { d with underlineDropped := true } else { d with unprintable := true })
        else d } }

theorem optByte_code (code : Option Byte) : optByte (code.map (·.toNat)) = code.getD 0xFF := by
  rw [optByte_eq]
  cases code with
  | none => rfl
  | some b => exact byte_toNat b

theorem skipOrder_eq (o : Order) (kind : StrikeKind) (code : Option Byte) (rest : List Order) (s : State) :
    skipOrder o kind code rest s =
      if o.last then finishStrikeGroup o.cell (orderSkipped o kind code rest s)
      else orderSkipped o kind code rest s := by
  unfold skipOrder orderSkipped
  dsimp only
  rw [optByte_code] <;> rfl

theorem orderSkipped_strikeQueue (o : Order) (kind : StrikeKind) (code : Option Byte) (rest : List Order)
    (s : State) : (orderSkipped o kind code rest s).strikeQueue = rest := by
  obtain ⟨l, h⟩ := raise_link .wheel 3 [byte o.cell, code.getD 0xFF, byte kind.code]
    { s with
      strikeQueue := rest
      engine := { s.engine with groupStarted := true }
      line := { s.line with cells := s.line.cells.map fun d =>
        if d.id = o.cell then
          (if kind = .under then { d with underlineDropped := true } else { d with unprintable := true })
        else d } }
  exact congrArg (·.strikeQueue) h

/-! ### A lift is abandoned (R102) -/

theorem dropGroup_append (body after : List Order) {final : Order} (hfinal : final.last = true)
    (hbody : ∀ x ∈ body, x.last = false) : dropGroup (body ++ final :: after) = after := by
  induction body with
  | nil => exact if_pos hfinal
  | cons x body ih =>
    obtain ⟨hx, hbody⟩ := List.forall_mem_cons.1 hbody
    exact (if_neg (Bool.eq_false_iff.1 hx)).trans (ih hbody)

/-- R102: the state in which the abandoned lift has left the strike queue, its cell STRUCK. -/
def liftLeft (cell : Nat) (after : List Order) (s : State) : State :=
  { s with
    strikeQueue := after
    engine := { s.engine with groupStarted := false, order := none }
    line := { s.line with cells := s.line.cells.map fun d =>
      if d.id = cell then { d with state := .struck } else d } }

theorem abandonLift_eq {check : LiftCheck} {c : Cell} {after : List Order}
    (hn : (s.line.cells.map (·.id)).Nodup) (hc : c ∈ s.line.cells) (hq : dropGroup s.strikeQueue = after) :
    abandonLift check c.id s = refuseLift check c.id c.strikes.length (liftLeft c.id after s) := by
  unfold abandonLift
  rw [findCell_of_mem hn hc, hq]
  rfl

end Start

section StrikesEnd

/-! ### The end of a cell's strikes (R71, R101, R122) -/

/-- R71: a cell STRUCK, its group no longer started. -/
def cellStruck (id : Nat) (s : State) : State :=
  { s with
    engine := { s.engine with groupStarted := false }
    line := { s.line with cells := s.line.cells.map fun d =>
      if d.id = id then { d with state := .struck } else d } }

/-- R111: L of the line on which a cell stands. -/
theorem lineLeft_leftOf {c : Cell} (hn : (s.line.cells.map (·.id)).Nodup) (hc : c ∈ s.line.cells) :
    lineLeft s c (leftOf s c.id) := by
  have hon := any_endedCells_iff (s := s) hn hc
  refine ⟨fun before e after r hcells he hbefore hr => ?_, fun hnone => ?_⟩
  · rw [hcells, endedCells_split he hbefore] at hon
    unfold leftOf
    rw [hr]
    refine if_congr ?_ rfl rfl
    rw [hcells, endedCells_split he hbefore]
    exact hon
  · unfold leftOf
    rw [endedCells_of_none hnone]
    rfl

theorem struckCell_id (id : Nat) (x : CellState) (c : Cell) :
    (if c.id = id then { c with state := x } else c).id = c.id := by split <;> rfl

theorem leftOf_cellStruck (id : Nat) (s : State) : leftOf (cellStruck id s) id = leftOf s id := by
  unfold leftOf
  rw [show (cellStruck id s).line.cells = s.line.cells.map fun d =>
    if d.id = id then { d with state := .struck } else d from rfl,
    endedCells_map fun c => by split <;> rfl, any_id_map (struckCell_id id .struck)]
  rfl

/-- A change in place that spares ids and fixed parts does not meet a filter by ids. -/
theorem filter_map_fixedPart {f : Cell → Cell} (hid : ∀ c, (f c).id = c.id)
    (hf : ∀ c, fixedPart (f c) = fixedPart c) (p : Nat → Bool) (cells : List Cell) :
    ((cells.map f).filter fun c => p c.id).map fixedPart = (cells.filter fun c => p c.id).map fixedPart := by
  rw [List.filter_map, List.map_map]
  have hp : ((fun c : Cell => p c.id) ∘ f) = fun c => p c.id := funext fun c => congrArg p (hid c)
  have hfixed : fixedPart ∘ f = fixedPart := funext hf
  rw [hp, hfixed]

/-- Of two states given to one cell the later stands. -/
theorem map_state_map_state (id : Nat) (x y : CellState) (cells : List Cell) :
    modifyCells id (fun c => { c with state := y }) (cells.map fun c => if c.id = id then { c with state := x } else c) =
      cells.map fun c => if c.id = id then { c with state := y } else c := by
  unfold modifyCells
  rw [List.map_map]
  refine List.map_congr_left fun c _ => ?_
  dsimp only [Function.comp_apply]
  by_cases h : c.id = id
  · simp only [if_pos h]
  · simp only [if_neg h]

theorem findCell_cellStruck {c : Cell} (hn : (s.line.cells.map (·.id)).Nodup) (hc : c ∈ s.line.cells) :
    findCell (cellStruck c.id s).line.cells c.id = some { c with state := .struck } := by
  refine (findCell_map (struckCell_id c.id .struck) c.id).trans ?_
  rw [findCell_of_mem hn hc]
  exact congrArg some (if_pos rfl)

/-- R122: the NOTE judgement of the struck cell. -/
theorem judgeNote_cellStruck {c : Cell} (hn : (s.line.cells.map (·.id)).Nodup) (hc : c ∈ s.line.cells) :
    judgeNote c.id (cellStruck c.id s) = match actingWatch s.zone .note c.start c.stop with
      | none => cellStruck c.id s
      | some x => raise .zone 5 ([byte x, byte (matched s (leftOf s c.id) c.start c.stop)] ++ be16 c.start ++
          be16 c.stop ++ be16 s.composer.printPoint ++ [byte c.id]) (cellStruck c.id s) := by
  have hwatch : actingWatch (cellStruck c.id s).zone .note ({ c with state := .struck } : Cell).start
      ({ c with state := .struck } : Cell).stop = actingWatch s.zone .note c.start c.stop := rfl
  unfold judgeNote
  rw [findCell_cellStruck hn hc]
  dsimp only
  rw [hwatch]
  cases actingWatch s.zone .note c.start c.stop with
  | none => rfl
  | some x =>
    dsimp only
    rw [leftOf_cellStruck]
    rfl

/-- The NOTE judgement raises no more than an event. -/
theorem judgeNote_link (id : Nat) (s : State) : ∃ l, judgeNote id s = { s with link := l } := by
  unfold judgeNote
  split
  next => exact ⟨s.link, rfl⟩
  next =>
    split
    next => exact ⟨s.link, rfl⟩
    next => exact raise_link ..

/-! ### The deferred lift (R99 to R101) -/

theorem checkLift_of_changed {strikes l x : List StrikeRecord} {r : StrikeRecord} (h : strikes = l ++ r :: x)
    (hr : r.wheel ≠ s.wheel.mounted) (hx : ∀ y ∈ x, y.wheel = s.wheel.mounted) :
    checkLift s strikes = .wheelChanged r.wheel := by
  have hfind : strikes.reverse.find? (fun r => r.wheel != s.wheel.mounted) = some r := by
    rw [List.find?_eq_some_iff_append]
    refine ⟨bne_iff_ne.2 hr, x.reverse, l.reverse, ?_, fun y hy => ?_⟩
    · rw [h, List.reverse_append, List.reverse_cons, List.append_assoc]
      rfl
    · rw [hx y (List.mem_reverse.1 hy), bne_self_eq_false]
      rfl
  unfold checkLift
  rw [hfind]

theorem checkLift_of_mounted {strikes : List StrikeRecord} (h : ∀ r ∈ strikes, r.wheel = s.wheel.mounted) :
    checkLift s strikes = if s.sensors.isOpen .tape then .tapeOut else .passed := by
  have hfind : strikes.reverse.find? (fun r => r.wheel != s.wheel.mounted) = none := by
    rw [List.find?_eq_none]
    intro r hr
    rw [h r (List.mem_reverse.1 hr), bne_self_eq_false]
    exact Bool.false_ne_true
  unfold checkLift
  rw [hfind]

theorem buildDeferred_of_other {id : Nat} (h : s.correction.deferred ≠ some id) : buildDeferred id s = s :=
  if_neg h

/-- R101: the state in which the deferred lift is taken up. -/
def deferredTaken (s : State) : State := { s with correction := { s.correction with deferred := none } }

section
variable {id : Nat} {c : Cell} (hd : s.correction.deferred = some id) (hc : findCell s.line.cells id = some c)
include hd hc

theorem buildDeferred_of_bare (h : c.strikes = []) :
    buildDeferred id s = removeCells false (fun d => d.id == id) (deferredTaken s) := by
  unfold buildDeferred
  rw [if_pos hd]
  dsimp only
  rw [hc]
  exact if_pos h

theorem buildDeferred_of_refused {check : LiftCheck} (h : c.strikes ≠ [])
    (hcheck : checkLift (deferredTaken s) c.strikes = check) (hfailed : check ≠ .passed) :
    buildDeferred id s = refuseLift check id c.strikes.length (deferredTaken s) := by
  unfold buildDeferred
  rw [if_pos hd]
  dsimp only
  rw [hc]
  refine (if_neg h).trans ?_
  rw [show checkLift { s with correction := { s.correction with deferred := none } } c.strikes = check from hcheck]
  cases check with
  | passed => exact absurd rfl hfailed
  | wheelChanged wheel => rfl
  | tapeOut => rfl

theorem buildDeferred_of_passed (h : c.strikes ≠ []) (hcheck : checkLift (deferredTaken s) c.strikes = .passed) :
    buildDeferred id s =
      if (buildLift c).orders.length ≤ queueRoom s then
        setCellState id .lifting { deferredTaken s with strikeQueue := (buildLift c).orders ++ s.strikeQueue }
      else { deferredTaken s with correction := { (deferredTaken s).correction with
        waiting := buildLift c :: s.correction.waiting } } := by
  unfold buildDeferred
  rw [if_pos hd]
  dsimp only
  rw [hc]
  refine (if_neg h).trans ?_
  rw [show checkLift { s with correction := { s.correction with deferred := none } } c.strikes = .passed from hcheck]
    <;> rfl

end

theorem buildLift_getElem? {c : Cell} {i : Nat} {r : StrikeRecord} (h : c.strikes.reverse[i]? = some r) :
    (buildLift c).orders[i]? = some
      { cell := c.id, position := r.position, last := decide (i + 1 = c.strikes.length),
        work := .lift r.kind r.petal r.wheel r.impression } := by
  unfold buildLift
  rw [markLast_getElem?, List.getElem?_map, h, List.length_map, List.length_reverse]
  rfl

theorem buildLift_length (c : Cell) : (buildLift c).orders.length = c.strikes.length := by
  unfold buildLift
  rw [markLast_length, List.length_map, List.length_reverse]

/-! ### The travel of the wheel (R42) -/

theorem travel_le (p q : Nat) : travel p q ≤ 48 := by
  unfold travel forwardTurn
  omega

theorem travel_eq_zero_iff {p q : Nat} (hp : p < 96) (hq : q < 96) : travel p q = 0 ↔ p = q := by
  unfold travel forwardTurn
  omega

theorem turnOf_of_turn {p q : Nat} (h : forwardTurn p q ≠ 0) : turnOf p q =
    if forwardTurn p q ≤ 48 then .forward (forwardTurn p q) else .backward (96 - forwardTurn p q) :=
  if_neg h

theorem turnOf_eq_forward {p q n : Nat} (h : turnOf p q = .forward n) :
    forwardTurn p q ≠ 0 ∧ forwardTurn p q ≤ 48 ∧ forwardTurn p q = n := by
  by_cases hd : forwardTurn p q = 0
  · exact Turn.noConfusion ((if_pos hd).symm.trans h)
  · rw [turnOf_of_turn hd] at h
    split at h
    next hhalf => exact ⟨hd, hhalf, Turn.forward.inj h⟩
    next => cases h

theorem turnOf_eq_backward {p q n : Nat} (h : turnOf p q = .backward n) :
    48 < forwardTurn p q ∧ 96 - forwardTurn p q = n := by
  by_cases hd : forwardTurn p q = 0
  · exact Turn.noConfusion ((if_pos hd).symm.trans h)
  · rw [turnOf_of_turn hd] at h
    split at h
    next => cases h
    next hhalf => exact ⟨Nat.not_le.1 hhalf, Turn.backward.inj h⟩

theorem choosePetal_of_two (p q r : Nat) : choosePetal p [q, r] =
    if travel p q < travel p r then some q else if travel p r < travel p q then some r else some (min q r) := rfl

/-- Settles O49: the start of the order at the head by its work, the end of a cell's strikes, and the travel. -/
theorem orders_start_or_are_skipped_by_the_wheel : Obligations.orders_start_or_are_skipped_by_the_wheel := by
  unfold Obligations.orders_start_or_are_skipped_by_the_wheel
  refine ⟨?start, ?ends, ?travels⟩
  case start =>
    intro s o rest hq e far turn carriage starts begun
    have hbegun (q impression : Nat) : beginStrike o.position q impression s = begun q impression := by
      by_cases h : far = 0 ∧ turn q = 0
      · rw [beginStrike_of_still h.1 h.2]
        simp only [begun, starts, carriage, strikeProgress, if_pos h, if_pos h.1, if_pos h.2]
        rfl
      · rw [beginStrike_of_motion h]
        simp only [begun, starts, carriage, strikeProgress, if_neg h]
        rfl
    refine ⟨fun kind code cs cl hw => ?_, fun kind petal wheel impression hw => ⟨fun hm ht => ?_, ?_⟩,
      fun units hw => ?_⟩
    · intro petals skipped
      have hpetals : candidatesNow s.wheel kind code = petals := candidatesNow_eq s.wheel kind code
      refine ⟨fun q hchosen => ?_, fun hempty => ?_⟩
      · have hstart := (startOrder_of_chosen hq hw (hpetals ▸ hchosen)).trans (hbegun q _)
        refine ⟨fun hk => ?_, fun p x hk hp hx => ?_⟩
        · rw [hstart, classNow_of_plain hk]
        · rw [hstart, classNow_of_petal hk hp hx]
      · have hstart := startOrder_of_skipped hq hw (hpetals.trans hempty)
        have hskip := skipOrder_eq o kind code rest s
        refine ⟨fun hlast => ?_, fun hlast => ?_⟩
        · rw [hlast] at hstart hskip
          refine hstart.trans ?_
          show startOrders rest.length (skipOrder o kind code rest s) = startOrders skipped.strikeQueue.length skipped
          rw [show skipOrder o kind code rest s = skipped from hskip,
            show skipped.strikeQueue = rest from orderSkipped_strikeQueue o kind code rest s]
        · rw [hlast] at hstart hskip
          exact hstart.trans hskip
    · refine (startOrder_of_lift hq hw).trans ((if_neg (not_not.2 hm)).trans ((if_neg ?_).trans (hbegun _ _)))
      rw [Sensors.isOpen_eq_false_iff (x := s.sensors) (i := .tape) |>.2 ht]
      exact Bool.false_ne_true
    · intro body final after c hqueue hfinal hbody hc hid hn left
      have hstart := startOrder_of_lift hq hw
      have hleft (check : LiftCheck) :
          abandonLift check o.cell s = refuseLift check o.cell c.strikes.length left := by
        have habandon := abandonLift_eq (check := check) hn hc (hqueue ▸ dropGroup_append body after hfinal hbody)
        rw [hid] at habandon
        exact habandon
      refine ⟨fun hm => hstart.trans ((if_pos hm).trans (hleft _)), fun hm ht =>
        hstart.trans ((if_neg (not_not.2 hm)).trans ((if_pos (Sensors.isOpen_iff (x := s.sensors) (i := .tape) |>.2 ht)).trans (hleft _)))⟩
    · exact startOrder_of_return hq hw
  case ends =>
    intro s c hc hn u all struck mounted count
    obtain ⟨l, hlink⟩ := judgeNote_link c.id (cellStruck c.id s)
    have hnote := judgeNote_cellStruck hn hc
    have hfound : findCell (judgeNote c.id (cellStruck c.id s)).line.cells c.id =
        some { c with state := .struck } := by
      rw [hlink]
      exact findCell_cellStruck hn hc
    refine ⟨judgeNote c.id (cellStruck c.id s), leftOf s c.id, lineLeft_leftOf hn hc, fun hno => ?_, fun x hx => ?_,
      fun hd => ?_, fun hd => ?_⟩
    · rw [hno] at hnote
      exact hnote
    · rw [hx] at hnote
      exact hnote
    · refine buildDeferred_of_other (s := judgeNote c.id (cellStruck c.id s)) ?_
      rw [hlink]
      exact hd
    · intro v good
      have hdeferred : (judgeNote c.id (cellStruck c.id s)).correction.deferred = some c.id := by
        rw [hlink]
        exact hd
      have hwheel : v.wheel = s.wheel := congrArg (·.wheel) hlink
      have hsensors : v.sensors = s.sensors := congrArg (·.sensors) hlink
      refine ⟨fun hbare => ?_, fun l r x hstrikes hr hx => ?_, fun hstrikes hgood ht => ?_, fun hstrikes hgood ht => ?_⟩
      · have hu : u = removeCells false (fun d => d.id == c.id) v := buildDeferred_of_bare hdeferred hfound hbare
        obtain ⟨l', sp, m, cells, hparts, hcells⟩ := removeCells_parts false (fun d => d.id == c.id) v
        refine ⟨?_, ?_, ?_, ?_, hu⟩
        · show u.line.cells.map fixedPart = _
          rw [hu, hparts]
          refine hcells.trans ?_
          rw [show v.line.cells = all .struck from congrArg (·.line.cells) hlink]
          exact filter_map_fixedPart (struckCell_id c.id .struck) (fun d => by split <;> rfl)
            (fun i => !(i == c.id)) s.line.cells
        · show u.strikeQueue = s.strikeQueue
          rw [hu, hparts]
          exact congrArg (·.strikeQueue) hlink
        · show u.correction = v.correction
          rw [hu, hparts]
        · show u.engine = v.engine
          rw [hu, hparts]
      · have hcheck : checkLift v c.strikes = .wheelChanged r.wheel :=
          checkLift_of_changed hstrikes (hwheel ▸ hr) fun y hy => (hx y hy).trans (congrArg (·.mounted) hwheel.symm)
        have hstrikes : c.strikes ≠ [] := by
          rw [hstrikes]
          simp
        refine (buildDeferred_of_refused hdeferred hfound hstrikes hcheck LiftCheck.noConfusion).trans ?_
        show askSound .error (raise .lift 1 [byte c.id, byte r.wheel, byte v.wheel.mounted, byte count] v) = _
        rw [hwheel]
      · have hcheck : checkLift v c.strikes = .tapeOut := by
          rw [checkLift_of_mounted fun r hr => (hgood r hr).trans (congrArg (·.mounted) hwheel.symm), hsensors]
          exact if_pos (Sensors.isOpen_iff (x := s.sensors) (i := .tape) |>.2 ht)
        exact buildDeferred_of_refused hdeferred hfound hstrikes hcheck LiftCheck.noConfusion
      · have hcheck : checkLift v c.strikes = .passed := by
          rw [checkLift_of_mounted fun r hr => (hgood r hr).trans (congrArg (·.mounted) hwheel.symm), hsensors,
            Sensors.isOpen_eq_false_iff (x := s.sensors) (i := .tape) |>.2 ht]
          rfl
        have hu := buildDeferred_of_passed hdeferred hfound hstrikes hcheck
        have hlength : (buildLift { c with state := .struck }).orders.length = count := buildLift_length _
        have hqueue : (judgeNote c.id (cellStruck c.id s)).strikeQueue = s.strikeQueue :=
          congrArg (·.strikeQueue) hlink
        have hroom : queueRoom (judgeNote c.id (cellStruck c.id s)) = 32 - s.strikeQueue.length := by
          unfold queueRoom
          rw [hqueue]
          rfl
        have hcount : 0 < count := List.length_pos_iff.2 hstrikes
        rw [hlength, hroom, hqueue] at hu
        refine ⟨buildLift { c with state := .struck }, rfl, hlength, fun i r hr => buildLift_getElem? hr,
          fun hfits => ?_, fun hfull => ?_⟩
        · refine (hu.trans (if_pos (by omega))).trans ?_
          have hcells : modifyCells c.id (fun d => { d with state := .lifting }) v.line.cells = all .lifting := by
            rw [show v.line.cells = all .struck from congrArg (·.line.cells) hlink]
            exact map_state_map_state c.id .struck .lifting s.line.cells
          exact congrArg (fun cells => { v with
            strikeQueue := (buildLift { c with state := .struck }).orders ++ s.strikeQueue
            line := { v.line with cells := cells } }) hcells
        · refine (hu.trans (if_neg (by omega))).trans ?_
          rw [show (judgeNote c.id (cellStruck c.id s)).correction.waiting = s.correction.waiting from
            congrArg (·.correction.waiting) hlink]
          rfl
  case travels =>
    intro p q r hp hq hr
    refine ⟨travel_le p q, travel_eq_zero_iff hp hq, fun h => ?_, fun n h => ?_, fun n h => ?_, rfl, rfl,
      fun x hx => ?_, ?_⟩
    · by_cases hd : forwardTurn p q = 0
      · exact (travel_eq_zero_iff hp hq).1 (by unfold travel; omega)
      · rw [turnOf_of_turn hd] at h
        split at h <;> cases h
    · obtain ⟨hd, hhalf, rfl⟩ := turnOf_eq_forward h
      unfold travel
      unfold forwardTurn at hd hhalf ⊢
      omega
    · obtain ⟨hhalf, rfl⟩ := turnOf_eq_backward h
      unfold travel
      unfold forwardTurn at hhalf ⊢
      omega
    · rw [choosePetal_of_two] at hx
      split at hx
      · obtain rfl := Option.some.inj hx
        omega
      · split at hx
        · obtain rfl := Option.some.inj hx
          omega
        · obtain rfl := Option.some.inj hx
          rcases Nat.le_total q r with hle | hle
          · rw [Nat.min_eq_left hle]
            omega
          · rw [Nat.min_eq_right hle]
            omega
    · rw [choosePetal_of_two]
      split
      · exact ⟨q, rfl⟩
      · split
        · exact ⟨r, rfl⟩
        · exact ⟨min q r, rfl⟩

end StrikesEnd

end Sys2Proof.Machine


/-! ## BRAKE_END completes an order (O52) -/

namespace Sys2Proof.Machine

variable {s : State}

section

theorem orderIn_of_phase {p : OrderProgress} {x : OrderPhase} (ho : s.engine.order = some p) (hp : p.phase = x) :
    orderIn x s = some p := by
  unfold orderIn
  rw [ho]
  exact if_pos (beq_iff_eq.2 hp)

theorem orderIn_of_other {p : OrderProgress} {x : OrderPhase} (ho : s.engine.order = some p) (hp : p.phase ≠ x) :
    orderIn x s = none := by
  unfold orderIn
  rw [ho]
  exact if_neg (mt beq_iff_eq.1 hp)

theorem exec_brakeEnd_of_brake {p : OrderProgress} {n : Time} (ho : s.engine.order = some p) (hp : p.phase = .brake)
    (hn : p.phaseEnd = some n) :
    exec .brakeEnd s = .next (textEvent (continueGroup (completeOrder (s.reach n)))) := by
  show execBrakeEnd s = _
  unfold execBrakeEnd
  rw [orderIn_of_phase ho hp]
  dsimp only
  rw [hn]
  rfl

/-- R71, R92: the state in which a firing has ended: the heat, the wheel position and the queue follow, and its
cell's records have changed. -/
def firingEnded (p : OrderProgress) (o : Order) (rest : List Order) (f : Cell → Cell) (s : State) : State :=
  { s with
    strikeQueue := rest
    engine := { s.engine with order := none, wheelPosition := p.petal }
    impression := { s.impression with heat := s.impression.heat + p.drivePulse }
    line := { s.line with cells := s.line.cells.map fun c => if c.id = o.cell then f c else c } }

theorem completeOrder_of_strike {p : OrderProgress} {o : Order} {rest : List Order} {q : Nat} {kind : StrikeKind}
    {code : Option Byte} {cs : List Nat} {cl : Option Nat} (ho : s.engine.order = some p)
    (hq : s.strikeQueue = o :: rest) (hp : p.petal = some q) (hw : o.work = .strike kind code cs cl) :
    completeOrder s =
      if o.last then finishStrikeGroup o.cell (firingEnded p o rest (fun c => { c with strikes := c.strikes ++
        [{ position := o.position, petal := q, wheel := s.wheel.mounted, kind := kind,
           impression := p.impression }] }) s)
      else firingEnded p o rest (fun c => { c with strikes := c.strikes ++
        [{ position := o.position, petal := q, wheel := s.wheel.mounted, kind := kind,
           impression := p.impression }] }) s := by
  unfold completeOrder
  rw [ho, hq]
  dsimp only
  rw [hw]
  dsimp only
  rw [hp]
  unfold firingEnded
  rw [hp] <;> rfl

theorem completeOrder_of_lift {p : OrderProgress} {o : Order} {rest : List Order} {kind : StrikeKind}
    {petal wheel impression : Nat} (ho : s.engine.order = some p) (hq : s.strikeQueue = o :: rest)
    (hw : o.work = .lift kind petal wheel impression) :
    completeOrder s =
      if o.last then finishLift o.cell (firingEnded p o rest (fun c => { c with strikes := c.strikes.dropLast }) s)
      else firingEnded p o rest (fun c => { c with strikes := c.strikes.dropLast }) s := by
  unfold completeOrder
  rw [ho, hq]
  dsimp only
  rw [hw] <;> rfl

theorem ids_map {f : Cell → Cell} (hid : ∀ c, (f c).id = c.id) (cells : List Cell) :
    (cells.map f).map (·.id) = cells.map (·.id) := by
  rw [List.map_map]
  exact List.map_congr_left fun c _ => hid c

theorem changedAt_id {f : Cell → Cell} (hf : ∀ c, (f c).id = c.id) (id : Nat) (c : Cell) :
    (if c.id = id then f c else c).id = c.id := by
  split
  · exact hf c
  · rfl

theorem changedAt_fixedPart {f : Cell → Cell} (hf : ∀ c, fixedPart (f c) = fixedPart c) (id : Nat) (c : Cell) :
    fixedPart (if c.id = id then f c else c) = fixedPart c := by
  split
  · exact hf c
  · rfl

/-- R71, R122: the end of a cell's strikes where it has no deferred lift. -/
theorem finishStrikeGroup_of_no_lift {c : Cell} (hd : s.correction.deferred ≠ some c.id) :
    finishStrikeGroup c.id s = judgeNote c.id (cellStruck c.id s) := by
  obtain ⟨l, hlink⟩ := judgeNote_link c.id (cellStruck c.id s)
  refine buildDeferred_of_other (s := judgeNote c.id (cellStruck c.id s)) ?_
  rw [hlink]
  exact hd

/-- R103: the lifted cell leaves the list with LIFT (DONE). -/
theorem finishLift_of_cell {c : Cell} {id : Nat} (hc : findCell s.line.cells id = some c) :
    finishLift id s = raise .lift 0 [byte id, c.glyph.getD 0xFF] (removeCells false (fun d => d.id == id)
      { s with engine := { s.engine with groupStarted := false } }) := by
  unfold finishLift
  rw [hc]
  dsimp only [Option.bind_some]
  rw [optByte_code]
  rfl

/-- Settles O52: the order that BRAKE completes, by its work and its place in its group, and what goes on. -/
theorem brake_end_completes_the_order : Obligations.brake_end_completes_the_order := by
  unfold Obligations.brake_end_completes_the_order
  refine ⟨?_, fun s => ?_⟩
  swap
  · intro goesOn
    exact ⟨fun h => if_pos h, fun h => if_neg h⟩
  intro s t p o rest n q ho hphase hend hpetal hq change
  have hexec := exec_brakeEnd_of_brake ho hphase hend
  have hchange (f : Cell → Cell) : firingEnded p o rest f (s.reach n) = change f := by
    unfold firingEnded
    rw [hpetal] <;> rfl
  have hids (f : Cell → Cell) (hf : ∀ c, (f c).id = c.id) :
      (change f).line.cells.map (·.id) = s.line.cells.map (·.id) := ids_map (changedAt_id hf o.cell) s.line.cells
  refine ⟨fun kind code cs cl hw ht => ?_, fun kind petal wheel cl hw ht => ?_⟩
  · have hcomplete := completeOrder_of_strike (s := s.reach n) ho hq hpetal hw
    rw [show (s.reach n).wheel = s.wheel from rfl, hchange, show change _ = t from ht.symm] at hcomplete
    refine ⟨fun hlast => ?_, fun hlast => ?_, fun hlast hd hn c hc hid => ?_⟩
    · rw [hlast] at hcomplete
      exact hexec.trans (congrArg (fun v => Host.Outcome.next (textEvent (continueGroup v))) hcomplete)
    · rw [hlast] at hcomplete
      exact hexec.trans (congrArg (fun v => Host.Outcome.next (textEvent (continueGroup v))) hcomplete)
    · rw [hlast] at hcomplete
      have hrecord (d : Cell) : ({ d with strikes := d.strikes ++
          [{ position := o.position, petal := q, wheel := s.wheel.mounted, kind := kind,
             impression := p.impression }] } : Cell).id = d.id := rfl
      have hnt : (t.line.cells.map (·.id)).Nodup := by
        rw [ht, hids _ hrecord]
        exact hn
      have hdt : t.correction.deferred ≠ some c.id := by
        rw [ht, hid]
        exact hd
      have hnote := judgeNote_cellStruck hnt hc
      have hfinish := finishStrikeGroup_of_no_lift hdt
      have hzone : t.zone = s.zone := by rw [ht]
      rw [hzone] at hnote
      refine ⟨judgeNote c.id (cellStruck c.id t), leftOf t c.id, ?_, lineLeft_leftOf hnt hc, ?_⟩
      · refine hexec.trans (congrArg (fun v => Host.Outcome.next (textEvent (continueGroup v))) ?_)
        rw [← hfinish, hid]
        exact hcomplete
      · intro struck
        have hstruck : cellStruck c.id t = struck := by rw [hid] <;> rfl
        rw [hstruck] at hnote ⊢
        refine ⟨fun hno => ?_, fun x hx => ?_⟩
        · rw [hno] at hnote
          exact hnote
        · rw [hx] at hnote
          rw [show matched s (leftOf t c.id) c.start c.stop = matched t (leftOf t c.id) c.start c.stop from
            by rw [ht]; rfl, show s.composer.printPoint = t.composer.printPoint from by rw [ht]]
          exact hnote
  · have hcomplete := completeOrder_of_lift (s := s.reach n) ho hq hw
    rw [hchange, show change _ = t from ht.symm] at hcomplete
    refine ⟨fun hlast => ?_, fun hlast hn c hc hid => ?_⟩
    · rw [hlast] at hcomplete
      exact hexec.trans (congrArg (fun v => Host.Outcome.next (textEvent (continueGroup v))) hcomplete)
    · rw [hlast] at hcomplete
      have hshorter (d : Cell) : ({ d with strikes := d.strikes.dropLast } : Cell).id = d.id := rfl
      have hfixed (d : Cell) : fixedPart { d with strikes := d.strikes.dropLast } = fixedPart d := rfl
      have hfound : findCell t.line.cells o.cell = some { c with strikes := c.strikes.dropLast } := by
        rw [ht]
        refine (findCell_map (changedAt_id hshorter o.cell) o.cell).trans ?_
        rw [← hid, findCell_of_mem hn hc]
        exact congrArg some (if_pos rfl)
      obtain ⟨l, sp, m, cells, hparts, hcells⟩ := removeCells_parts false (fun d => d.id == o.cell)
        { t with engine := { t.engine with groupStarted := false } }
      refine ⟨_, removeCells false (fun d => d.id == o.cell)
        { t with engine := { t.engine with groupStarted := false } }, ?_, rfl, rfl, ?_, ?_, ?_, ?_, ?_⟩
      · refine hexec.trans (congrArg (fun v => Host.Outcome.next (textEvent (continueGroup v))) ?_)
        exact hcomplete.trans (finishLift_of_cell (c := { c with strikes := c.strikes.dropLast }) hfound)
      · rw [hparts]
        refine hcells.trans ?_
        rw [ht]
        exact filter_map_fixedPart (changedAt_id hshorter o.cell) (changedAt_fixedPart hfixed o.cell)
          (fun i => !(i == o.cell)) s.line.cells
      · rw [hparts, ht]
      · rw [hparts]
      · rw [hparts]
      · rw [hparts, ht]

end

end Sys2Proof.Machine


/-! ## The ends of motions and phases, a RETURN, motors and hammer (O50) -/

namespace Sys2Proof.Machine

variable {s : State}

section Motions

/-! ### The ends of motions (R71, R74) -/

variable {p : OrderProgress}

theorem endMoving_of_more (ho : s.engine.order = some p) (h : ¬(p.carriage = none ∧ p.wheel = none ∧ p.platen = false)) :
    endMoving s = s := by
  unfold endMoving
  rw [ho]
  exact if_neg fun g => h g.2

/-- R71: the last motion of a strike or a lift has ended. -/
theorem endMoving_of_petal (ho : s.engine.order = some p) (hm : p.phase = .moving) (hc : p.carriage = none)
    (hw : p.wheel = none) (hpl : p.platen = false) (hp : p.petal ≠ none) :
    endMoving s = { s with engine := { s.engine with
      order := some { p with carriage := none, wheel := none, phase := .settling,
                             phaseEnd := some (s.now + 20) } } } := by
  unfold endMoving
  rw [ho]
  exact (if_pos ⟨hm, hc, hw, hpl⟩).trans ((if_neg hp).trans (congrArg₂ (fun c w => ({ s with engine := { s.engine with
    order := some { p with
      carriage := c, wheel := w, phase := .settling, phaseEnd := some (s.now + 20) } } } : State)) hc hw))

theorem endMoving_of_return {o : Order} {rest : List Order} {n : Nat} (ho : s.engine.order = some p)
    (hm : p.phase = .moving) (hc : p.carriage = none) (hw : p.wheel = none) (hpl : p.platen = false)
    (hp : p.petal = none) (hq : s.strikeQueue = o :: rest) (hwork : o.work = .returnLine n) :
    endMoving s =
      completeReturn { s with strikeQueue := rest, engine := { s.engine with order := none } } := by
  unfold endMoving
  rw [ho]
  refine (if_pos ⟨hm, hc, hw, hpl⟩).trans ((if_pos hp).trans ?_)
  unfold completeOrder
  rw [ho, hq]
  dsimp only
  rw [hwork] <;> rfl

theorem exec_carriageMoveEnd_of_move {o : Order} {rest : List Order} (hh : s.engine.homing = none)
    (ho : s.engine.order = some p) (hq : s.strikeQueue = o :: rest) (hc : p.carriage ≠ none) :
    exec .carriageMoveEnd s = .next (textEvent (endMoving { s with engine := { s.engine with
      carriage := some (o.position : Int), order := some { p with carriage := none } } })) := by
  show execCarriageMoveEnd s = _
  unfold execCarriageMoveEnd
  rw [if_neg (by rw [hh]; exact Option.some_ne_none _ ∘ Eq.symm), ho]
  have hposition : ((s.strikeQueue.head?).map (·.position)).getD 0 = o.position := by rw [hq]; rfl
  refine (if_pos (Option.isSome_iff_ne_none.2 hc)).trans ?_
  exact congrArg (fun x : Nat => Host.Outcome.next (textEvent (endMoving
    (setOrder { p with carriage := none } (arrive x s))))) hposition

theorem exec_carriageMoveEnd_of_none (hh : s.engine.homing = none) (ho : s.engine.order = some p)
    (hc : p.carriage = none) : exec .carriageMoveEnd s = .next s := by
  show execCarriageMoveEnd s = _
  unfold execCarriageMoveEnd
  rw [if_neg (by rw [hh]; exact Option.some_ne_none _ ∘ Eq.symm), ho]
  refine if_neg ?_
  rw [hc]
  exact Bool.false_ne_true

theorem exec_wheelTurnEnd_of_turn (ho : s.engine.order = some p) (hw : p.wheel ≠ none) :
    exec .wheelTurnEnd s = .next (endMoving { s with engine := { s.engine with
      order := some { p with wheel := none } } }) := by
  show execWheelTurnEnd s = _
  unfold execWheelTurnEnd
  rw [ho]
  exact if_pos (Option.isSome_iff_ne_none.2 hw)

theorem exec_wheelTurnEnd_of_none (ho : s.engine.order = some p) (hw : p.wheel = none) :
    exec .wheelTurnEnd s = .next s := by
  show execWheelTurnEnd s = _
  unfold execWheelTurnEnd
  rw [ho]
  refine if_neg ?_
  rw [hw]
  exact Bool.false_ne_true

theorem exec_platenMotionEnd_of_motion (ho : s.engine.order = some p) (hp : p.platen = true) :
    exec .platenMotionEnd s = .next (textEvent (endMoving { s with engine := { s.engine with
      order := some { p with platen := false } } })) := by
  show execPlatenMotionEnd s = _
  unfold execPlatenMotionEnd
  rw [ho]
  exact if_pos hp

theorem exec_platenMotionEnd_of_none (ho : s.engine.order = some p) (hp : p.platen = false) :
    exec .platenMotionEnd s = .next s := by
  show execPlatenMotionEnd s = _
  unfold execPlatenMotionEnd
  rw [ho]
  exact if_neg (Bool.eq_false_iff.1 hp)

/-! ### The ends of phases (R71, R84) -/

theorem exec_settlingEnd_of_settling {n : Time} (ho : s.engine.order = some p) (hp : p.phase = .settling)
    (hn : p.phaseEnd = some n) : exec .settlingEnd s = .next (setOrder
      { p with
        phase := .drive, drivePulse := firingDrive (s.reach n) p, brakePulse := firingBrake (s.reach n) p,
        driveStart := (s.reach n).now, phaseEnd := some ((s.reach n).now + firingDrive (s.reach n) p) }
      (s.reach n)) := by
  show execSettlingEnd s = _
  unfold execSettlingEnd
  rw [orderIn_of_phase ho hp]
  dsimp only
  rw [hn]
  rfl

theorem exec_driveEnd_of_drive {n : Time} (ho : s.engine.order = some p) (hp : p.phase = .drive)
    (hn : p.phaseEnd = some n) : exec .driveEnd s = .next (setOrder
      { p with phase := .brake, phaseEnd := some ((s.reach n).now + p.brakePulse) } (s.reach n)) := by
  show execDriveEnd s = _
  unfold execDriveEnd
  rw [orderIn_of_phase ho hp]
  dsimp only
  rw [hn]
  rfl

theorem exec_settlingEnd_of_other (ho : s.engine.order = some p) (hp : p.phase ≠ .settling) :
    exec .settlingEnd s = .next s := by
  show execSettlingEnd s = _
  unfold execSettlingEnd
  rw [orderIn_of_other ho hp]

theorem exec_driveEnd_of_other (ho : s.engine.order = some p) (hp : p.phase ≠ .drive) :
    exec .driveEnd s = .next s := by
  show execDriveEnd s = _
  unfold execDriveEnd
  rw [orderIn_of_other ho hp]

theorem headIsLift_eq {o : Order} {rest : List Order} (hq : s.strikeQueue = o :: rest) :
    headIsLift s = match o.work with | .lift _ _ _ _ => true | _ => false := by
  obtain ⟨cell, position, last, work⟩ := o
  unfold headIsLift
  rw [hq]
  cases work <;> rfl

end Motions

section Return

/-! ### A RETURN completes (R9, R74) -/

variable {before after : List Cell} {e : Cell}

/-- The ids of the cells up to the LINE-END cell tell those cells from the ones behind it. -/
theorem contains_ended_iff (hn : ((before ++ e :: after).map (·.id)).Nodup) {c : Cell}
    (hc : c ∈ before ++ e :: after) :
    ((before ++ [e]).map (·.id)).contains c.id = true ↔ c ∈ before ++ [e] := by
  rw [List.contains_iff_mem, List.mem_map]
  constructor
  · rintro ⟨d, hd, hid⟩
    have hmem : d ∈ before ++ e :: after := by
      rcases List.mem_append.1 hd with h | h
      · exact List.mem_append_left _ h
      · exact List.mem_append_right _ (List.mem_singleton.1 h ▸ List.mem_cons_self)
    rwa [← List.inj_on_of_nodup_map hn hmem hc hid]
  · exact fun h => ⟨c, h, rfl⟩

theorem filter_not_ended (hn : ((before ++ e :: after).map (·.id)).Nodup) :
    ((before ++ e :: after).filter fun c => !((before ++ [e]).map (·.id)).contains c.id) = after := by
  have hsplit : before ++ e :: after = (before ++ [e]) ++ after := (List.append_assoc before [e] after).symm
  have hgone : ∀ c ∈ before ++ [e], ((before ++ [e]).map (·.id)).contains c.id = true := fun c hc =>
    List.contains_iff_mem.2 (List.mem_map_of_mem hc)
  have hstays : ∀ c ∈ after, ((before ++ [e]).map (·.id)).contains c.id = false := fun c hc => by
    rw [Bool.eq_false_iff, Ne, contains_ended_iff hn (List.mem_append_right _ (List.mem_cons_of_mem _ hc))]
    intro hmem
    rw [hsplit, List.map_append, List.nodup_append] at hn
    exact hn.2.2 c.id (List.mem_map_of_mem hmem) c.id (List.mem_map_of_mem hc) rfl
  rw [hsplit, List.filter_append]
  have hfirst : ((before ++ [e]).filter fun c => !((before ++ [e]).map (·.id)).contains c.id) = [] := by
    rw [List.filter_eq_nil_iff]
    intro c hc
    rw [hgone c hc]
    exact Bool.false_ne_true
  have hrest : (after.filter fun c => !((before ++ [e]).map (·.id)).contains c.id) = after := by
    rw [List.filter_eq_self]
    intro c hc
    rw [hstays c hc]
    rfl
  rw [hfirst, hrest, List.nil_append]

/-- R9: a mark on a cell of the paper line has nothing left before it. -/
theorem markAfterRemoval_of_ended (hn : ((before ++ e :: after).map (·.id)).Nodup) {d : Cell}
    (hd : d ∈ before ++ [e]) :
    markAfterRemoval (fun c => ((before ++ [e]).map (·.id)).contains c.id) (before ++ e :: after) (some d.id) =
      none := by
  obtain ⟨l, r, hlr⟩ := List.append_of_mem hd
  have hcells : before ++ e :: after = l ++ d :: (r ++ after) := by
    rw [← List.singleton_append, ← List.append_assoc, hlr, List.append_assoc]
    rfl
  have hgone : ((before ++ [e]).map (·.id)).contains d.id = true :=
    List.contains_iff_mem.2 (List.mem_map_of_mem hd)
  have hempty : (l.filter fun c => !((before ++ [e]).map (·.id)).contains c.id) = [] := by
    rw [List.filter_eq_nil_iff]
    intro c hc
    have hmem : c ∈ before ++ [e] := hlr ▸ List.mem_append_left _ hc
    rw [List.contains_iff_mem.2 (List.mem_map_of_mem hmem)]
    exact Bool.false_ne_true
  rw [hcells] at hn ⊢
  rw [markAfterRemoval_of_gone (gone := fun c => ((before ++ [e]).map (·.id)).contains c.id) hn hgone, hempty]
  rfl

theorem markAfterRemoval_of_kept_mark {mark : Option Nat} (h : ∀ d ∈ before ++ [e], mark ≠ some d.id) :
    markAfterRemoval (fun c => ((before ++ [e]).map (·.id)).contains c.id) (before ++ e :: after) mark = mark := by
  cases mark with
  | none => rfl
  | some m =>
    refine if_neg ?_
    rw [List.any_eq_true]
    rintro ⟨c, -, hc⟩
    obtain ⟨hid, hgone⟩ := Bool.and_eq_true_iff.1 hc
    obtain ⟨d, hd, hdc⟩ := List.mem_map.1 (List.contains_iff_mem.1 hgone)
    exact h d hd (congrArg some ((beq_iff_eq.1 hid).symm.trans hdc.symm))

theorem completeReturn_eq (hcells : s.line.cells = before ++ e :: after) (he : e.kind = .lineEnd)
    (hbefore : ∀ d ∈ before, d.kind ≠ .lineEnd) : ∃ u : State,
    completeReturn s = raise .line 0 [] { u with line := { u.line with paper := none } } ∧
      u = removeCells false (fun d => ((before ++ [e]).map (·.id)).contains d.id)
        { s with engine := { s.engine with groupStarted := false } } := by
  refine ⟨_, ?_, rfl⟩
  unfold completeReturn
  rw [hcells, endedCells_split he hbefore]
  rfl

end Return

section Outputs

/-! ### What motors and hammer are given (R42, R59, R71, R74) -/

theorem mechanismOutput_of_off (h : s.engine.state = .unhomed ∨ s.engine.state = .paused .cover ∨
      s.engine.state.isFaulted = true) :
    mechanismOutput s = { motors := .off, platen := none, hammer := .inhibited } := by
  unfold mechanismOutput
  rcases h with h | h | h
  · rw [h]
  · rw [h]
  · cases hstate : s.engine.state with
    | faulted r => rfl
    | _ => exact Bool.noConfusion ((congrArg EngineState.isFaulted hstate).symm.trans h)

theorem mechanismOutput_of_rest (h : s.engine.state = .identifying ∨ s.engine.state = .ready ∨
      s.engine.state = .paused .paper ∨ s.engine.state = .paused .supply) :
    mechanismOutput s = outputAtRest s := by
  unfold mechanismOutput
  rcases h with h | h | h | h <;> rw [h]

theorem mechanismOutput_of_order {p : OrderProgress} (h : s.engine.state = .running) (ho : s.engine.order = some p) :
    mechanismOutput s = orderOutput p s := by
  unfold mechanismOutput
  rw [h, ho]

theorem orderTarget_eq {p : OrderProgress} {o : Order} {rest : List Order} (ho : s.engine.order = some p)
    (hq : s.strikeQueue = o :: rest) : orderTarget s = if p.carriage = none then none else some o.position := by
  unfold orderTarget
  rw [ho, hq]
  cases hc : p.carriage <;> simp [hc]

theorem orderPlaten_of_return {p : OrderProgress} {o : Order} {rest : List Order} {units : Nat}
    (hq : s.strikeQueue = o :: rest) (hp : p.platen = true) (hw : o.work = .returnLine units) :
    orderPlaten p s = some (units : Int) := by
  obtain ⟨cell, position, last, work⟩ := o
  obtain rfl : work = .returnLine units := hw
  unfold orderPlaten
  rw [hq]
  exact if_pos hp

theorem orderPlaten_of_other {p : OrderProgress} {o : Order} {rest : List Order} (hq : s.strikeQueue = o :: rest)
    (h : p.platen = false ∨ ∀ units, o.work ≠ .returnLine units) : orderPlaten p s = s.engine.feed := by
  obtain ⟨cell, position, last, work⟩ := o
  unfold orderPlaten
  rw [hq]
  cases work with
  | returnLine units =>
    rcases h with h | h
    · exact if_neg (Bool.eq_false_iff.1 h)
    · exact absurd rfl (h units)
  | strike kind code candidates impression => rfl
  | lift kind petal wheel impression => rfl

theorem orderTurn_of_none {p : OrderProgress} {e : Engine} (h : p.wheel = none ∨ p.petal = none) :
    orderTurn p e = .still := by
  unfold orderTurn
  rcases h with h | h
  · rw [h]
  · rw [h]
    cases p.wheel <;> rfl

theorem orderTurn_of_turn {p : OrderProgress} {e : Engine} {q w d : Nat} (hw : p.wheel ≠ none)
    (hp : p.petal = some q) (he : e.wheelPosition = some w) (hq : q < 96) (hw96 : w < 96) (hd : d < 96)
    (h : (w + d) % 96 = q) :
    orderTurn p e = if d = 0 then .still else if d ≤ 48 then .forward d else .backward (96 - d) := by
  obtain ⟨x, hx⟩ := Option.ne_none_iff_exists'.1 hw
  have hturn : forwardTurn w q = d := by
    unfold forwardTurn
    omega
  unfold orderTurn
  rw [hx, hp, he]
  show turnOf w q = _
  unfold turnOf
  rw [hturn]

end Outputs

/-- Settles O50: motions and phases by what ends, a RETURN's removal part by part, and the outputs by state and
phase. -/
theorem motions_settling_and_drive_end : Obligations.motions_settling_and_drive_end := by
  unfold Obligations.motions_settling_and_drive_end
  refine ⟨?motions, ?phases, ?completes, ?outputs⟩
  case motions =>
    intro s p o rest ho hm hq hh settling engine there
    have hmove (hc : p.carriage ≠ none) : exec .carriageMoveEnd s =
        .next (textEvent (endMoving (engine there { p with carriage := none }))) :=
      exec_carriageMoveEnd_of_move hh ho hq hc
    have hturn (hw : p.wheel ≠ none) : exec .wheelTurnEnd s =
        .next (endMoving (engine s.engine { p with wheel := none })) := exec_wheelTurnEnd_of_turn ho hw
    have hplaten (hp : p.platen = true) : exec .platenMotionEnd s =
        .next (textEvent (endMoving (engine s.engine { p with platen := false }))) :=
      exec_platenMotionEnd_of_motion ho hp
    refine ⟨fun hc hpl hp => ⟨fun hw => ?_, fun hw => ?_⟩, fun hw hpl hp => ⟨fun hc => ?_, fun hc => ?_⟩,
      fun hp hw hpl => ⟨fun hc => ⟨?_, ?_⟩, fun hc ⟨n, hwork⟩ => ?_⟩, fun hp hw hpl hc ⟨n, hwork⟩ => ?_,
      exec_carriageMoveEnd_of_none hh ho, exec_wheelTurnEnd_of_none ho, exec_platenMotionEnd_of_none ho⟩
    · rw [hmove hc, endMoving_of_petal (s := engine there { p with carriage := none }) rfl hm rfl hw hpl hp]
    · rw [hmove hc, endMoving_of_more (s := engine there { p with carriage := none }) rfl fun h => hw h.2.1]
    · rw [hturn hw, endMoving_of_petal (s := engine s.engine { p with wheel := none }) rfl hm hc rfl hpl hp]
    · rw [hturn hw, endMoving_of_more (s := engine s.engine { p with wheel := none }) rfl fun h => hc h.1]
    · rw [hmove hc, endMoving_of_more (s := engine there { p with carriage := none }) rfl
        fun h => Bool.false_ne_true (h.2.2.symm.trans hpl)]
    · rw [hplaten hpl, endMoving_of_more (s := engine s.engine { p with platen := false }) rfl fun h => hc h.1]
    · rw [hplaten hpl, endMoving_of_return (s := engine s.engine { p with platen := false }) rfl hm hc hw rfl hp hq
        hwork]
    · rw [hmove hc, endMoving_of_return (s := engine there { p with carriage := none }) rfl hm rfl hw hpl hp hq hwork]
  case phases =>
    intro s p o rest n speed ho hn hq hspeed lift d b now goes
    have hdrive : firingDrive (s.reach n) p = d := by
      unfold firingDrive
      rw [headIsLift_eq (s := s.reach n) hq] <;> rfl
    have hbrake : firingBrake (s.reach n) p = b := by
      unfold firingBrake
      rw [hdrive, show (s.reach n).engine.latchedSpeed = some speed from hspeed]
      rfl
    refine ⟨fun hp => ?_, fun hp => ?_, exec_settlingEnd_of_other ho, exec_driveEnd_of_other ho⟩
    · rw [exec_settlingEnd_of_settling ho hp hn, hdrive, hbrake]
      rfl
    · exact exec_driveEnd_of_drive ho hp hn
  case completes =>
    intro s before after e hcells he hbefore hn
    rw [hcells] at hn
    obtain ⟨u, hcomplete, hu⟩ := completeReturn_eq hcells he hbefore
    obtain ⟨l, sp, m, cells, hparts, hleft⟩ := removeCells_parts false
      (fun d => ((before ++ [e]).map (·.id)).contains d.id) { s with engine := { s.engine with groupStarted := false } }
    have hall := hu.trans hparts
    refine ⟨u, hcomplete, hu, ?_, ?_, fun ⟨d, hd, hmark⟩ => ?_, fun hmark => ?_, ?_, ?_, ?_, ?_, ?_, ?_, ?_⟩
    · rw [hall]
      refine hleft.trans ?_
      show (s.line.cells.filter _).map fixedPart = _
      rw [hcells, filter_not_ended hn]
    · rw [hall]
    · rw [hall]
      show markAfterRemoval _ s.line.cells s.line.releaseMark = none
      rw [hcells, hmark, markAfterRemoval_of_ended hn hd]
    · rw [hall]
      show markAfterRemoval _ s.line.cells s.line.releaseMark = _
      rw [hcells, markAfterRemoval_of_kept_mark hmark]
    · have hids (i : Nat) : ((s.line.cells.filter fun d =>
          ((before ++ [e]).map (·.id)).contains d.id).map (·.id)).contains i =
          ((before ++ [e]).map (·.id)).contains i := by
        refine ids_filter_contains (fun i hi => ?_) i
        obtain ⟨c, hc, rfl⟩ := List.mem_map.1 hi
        refine ⟨c, ?_, rfl⟩
        rw [hcells, ← List.singleton_append, ← List.append_assoc]
        exact List.mem_append_left _ hc
      rw [hall]
      exact congrArg (fun keeps : Nat → Bool => { s.composer with openRun := s.composer.openRun.filter keeps })
        (funext fun i => congrArg (!·) (hids i))
    · rw [hall]
    · rw [hall]
    · rw [hall]
    · rw [hall]
    · rw [hall]
    · rw [hall]
  case outputs =>
    intro s e gives
    refine ⟨mechanismOutput_of_off, fun x hs hx => ?_, fun hs => ?_, fun hs ho => ?_, fun p o rest hs ho hq => ?_⟩
    · show mechanismOutput s = _
      unfold mechanismOutput
      rw [show s.engine.state = .homing from hs, show s.engine.homing = some x from hx] <;> rfl
    · exact mechanismOutput_of_rest (by simpa using hs)
    · show mechanismOutput s = _
      unfold mechanismOutput
      rw [show s.engine.state = .running from hs, show s.engine.order = none from ho] <;> rfl
    · intro motions
      have hout := mechanismOutput_of_order hs ho
      have htarget := orderTarget_eq ho hq
      refine ⟨fun units hp hpl hw => hout.trans ?_, fun hp h => hout.trans ?_, orderTurn_of_none,
        fun q w d hw hp he hq hw96 hd h => orderTurn_of_turn hw hp he hq hw96 hd h, fun hp => hout.trans ?_,
        fun hp => hout.trans ?_, fun hp => hout.trans ?_⟩
      · unfold orderOutput
        rw [hp, htarget, orderPlaten_of_return hq hpl hw]
      · unfold orderOutput
        rw [hp, htarget, orderPlaten_of_other hq h]
      · unfold orderOutput
        rw [hp] <;> rfl
      · unfold orderOutput
        rw [hp] <;> rfl
      · unfold orderOutput
        rw [hp] <;> rfl

end Sys2Proof.Machine


/-! ## Line-end alignment (O46) -/

namespace Sys2Proof.Machine

section

variable {body trailing : List Cell} {last : Cell}

/-! ### Body and trailing cells of a line (R34) -/

theorem isInk_eq_false {c : Cell} (h : ¬(c.kind = .glyph ∨ c.kind = .composite)) : c.isInk = false :=
  Bool.eq_false_iff.2 (mt Cell.isInk_iff.1 h)

theorem reverse_line_split (trailing : List Cell) (hlast : body.getLast? = some last) : ∃ init, body = init ++ [last] ∧
    (body ++ trailing).reverse = trailing.reverse ++ last :: init.reverse := by
  obtain ⟨init, rfl⟩ := List.getLast?_eq_some_iff.1 hlast
  refine ⟨init, rfl, ?_⟩
  rw [List.reverse_append, List.reverse_append]
  rfl

section
variable (hlast : body.getLast? = some last) (hink : last.isInk = true) (htrailing : ∀ c ∈ trailing, c.isInk = false)
include hlast hink htrailing

theorem bodyCells_line : bodyCells (body ++ trailing) = body := by
  obtain ⟨init, hbody, hreverse⟩ := reverse_line_split trailing hlast
  unfold bodyCells
  rw [hreverse, List.dropWhile_append_of_pos fun c hc => by rw [htrailing c (List.mem_reverse.1 hc)]; rfl,
    List.dropWhile_cons_of_neg (by rw [hink]; exact Bool.false_ne_true), List.reverse_cons, List.reverse_reverse, hbody]

theorem trailingCells_line : trailingCells (body ++ trailing) = trailing := by
  obtain ⟨init, hbody, hreverse⟩ := reverse_line_split trailing hlast
  unfold trailingCells
  rw [hreverse, List.takeWhile_append_of_pos fun c hc => by rw [htrailing c (List.mem_reverse.1 hc)]; rfl,
    List.takeWhile_cons_of_neg (by rw [hink]; exact Bool.false_ne_true), List.append_nil, List.reverse_reverse]

theorem lastInk_line : lastInk (body ++ trailing) = some last := by
  obtain ⟨init, rfl, -⟩ := reverse_line_split trailing hlast
  have hnone : trailing.filter Cell.isInk = [] :=
    List.filter_eq_nil_iff.2 fun c hc => by rw [htrailing c hc]; exact Bool.false_ne_true
  unfold lastInk
  rw [List.filter_append, hnone, List.append_nil, List.filter_append, List.filter_cons_of_pos hink,
    List.filter_nil, List.getLast?_append]
  rfl

end

/-- R34: the inner spaces of a list. -/
def spacesIn (cells : List Cell) : Nat := (cells.filter fun c => c.kind == .space).length

theorem spacesIn_cons_of_space {c : Cell} (h : c.kind = .space) (l : List Cell) :
    spacesIn (c :: l) = spacesIn l + 1 := by
  unfold spacesIn
  rw [List.filter_cons_of_pos (p := fun c : Cell => c.kind == .space) (beq_iff_eq.2 h)]
  rfl

theorem spacesIn_cons_of_other {c : Cell} (h : c.kind ≠ .space) (l : List Cell) :
    spacesIn (c :: l) = spacesIn l := by
  unfold spacesIn
  rw [List.filter_cons_of_neg (p := fun c : Cell => c.kind == .space) (mt beq_iff_eq.1 h)]

/-! ### The walk of justification (R35) -/

/-- R35: a cell with what stands before it has gained, and what it gains itself. -/
def justified (q r k : Nat) (c : Cell) : Cell :=
  { c with
    start := c.start + k * q + min k r
    advance := c.advance + if c.kind = .space then q + (if k < r then 1 else 0) else 0 }

/-- R35: the share of the spaces passed grows by that of the next one. -/
theorem share_succ (q r k : Nat) :
    k * q + min k r + (q + if k < r then 1 else 0) = (k + 1) * q + min (k + 1) r := by
  rw [Nat.succ_mul]
  split <;> omega

/-- R35: behind the first glyph each cell moves by the share of the spaces before it. -/
theorem justifyCells_inked (q r : Nat) (l : List Cell) (k i : Nat) :
    (justifyCells q r true k (k * q + min k r) l)[i]? = (l[i]?).map (justified q r (k + spacesIn (l.take i))) := by
  induction l generalizing k i with
  | nil => rfl
  | cons c l ih =>
    unfold justifyCells
    by_cases hc : c.kind = .space
    · rw [if_pos ⟨rfl, hc⟩]
      dsimp only
      cases i with
      | zero =>
        rw [List.getElem?_cons_zero, List.getElem?_cons_zero]
        show _ = some (justified q r k c)
        unfold justified
        rw [if_pos hc, Nat.add_assoc c.start]
      | succ i =>
        rw [List.getElem?_cons_succ, List.getElem?_cons_succ, List.take_succ_cons, spacesIn_cons_of_space hc,
          share_succ, ih, Nat.add_right_comm k 1, Nat.add_assoc k]
    · rw [if_neg fun h => hc h.2]
      cases i with
      | zero =>
        rw [List.getElem?_cons_zero, List.getElem?_cons_zero]
        show _ = some (justified q r k c)
        unfold justified
        rw [if_neg hc, Nat.add_assoc c.start]
        rfl
      | succ i =>
        rw [List.getElem?_cons_succ, List.getElem?_cons_succ, List.take_succ_cons, spacesIn_cons_of_other hc,
          Bool.true_or, ih]

/-- R35: before the first glyph nothing moves. -/
theorem justifyCells_blank {l : List Cell} (h : ∀ c ∈ l, c.isInk = false) (q r : Nat) (rest : List Cell) :
    justifyCells q r false 0 0 (l ++ rest) = l ++ justifyCells q r false 0 0 rest := by
  induction l with
  | nil => rfl
  | cons c l ih =>
    obtain ⟨hc, hl⟩ := List.forall_mem_cons.1 h
    rw [List.cons_append, justifyCells, if_neg fun g => Bool.false_ne_true g.1, hc, Bool.false_or, ih hl]
    rfl

theorem justifyCells_first {c : Cell} (h : c.isInk = true) (q r : Nat) (rest : List Cell) :
    justifyCells q r false 0 0 (c :: rest) = c :: justifyCells q r true 0 0 rest := by
  rw [justifyCells, if_neg fun g => Bool.false_ne_true g.1, h]
  rfl

/-! ### An ended line (R34, R36) -/

theorem alignmentApplies_iff {flush : Bool} {e : LineEnding} {line : List Cell} (h : ∃ c ∈ line, c.isInk = true) :
    alignmentApplies flush e line = true ↔
      e.mode = .line ∧ flush = false ∧ ∀ c ∈ line, c.state = .held := by
  unfold alignmentApplies
  rw [Bool.and_eq_true_iff, Bool.and_eq_true_iff, Bool.and_eq_true_iff, beq_iff_eq, Bool.not_eq_true',
    List.all_eq_true, List.any_eq_true, and_iff_left h, and_assoc]
  exact and_congr_right fun _ => and_congr_right fun _ => forall₂_congr fun _ _ => beq_iff_eq

section
variable {flush : Bool} {e : LineEnding} (hlast : body.getLast? = some last) (hink : last.isInk = true)
  (htrailing : ∀ c ∈ trailing, c.isInk = false)
include hlast hink htrailing

theorem alignLine_of_unaligned
    (h : alignmentApplies flush e (body ++ trailing) = false ∨ e.rightMargin < last.stop) :
    alignLine flush e (body ++ trailing) = { cells := body ++ trailing, abandoned := false } := by
  unfold alignLine
  rw [lastInk_line hlast hink htrailing]
  exact if_pos h

theorem alignLine_of_aligned
    (h : ¬(alignmentApplies flush e (body ++ trailing) = false ∨ e.rightMargin < last.stop)) :
    alignLine flush e (body ++ trailing) = match e.alignment with
      | .left => { cells := body ++ trailing, abandoned := false }
      | .center => { cells := withCollapsed (moveRight ((e.rightMargin - last.stop) / 2) body) trailing
                     abandoned := false }
      | .right => { cells := withCollapsed (moveRight (e.rightMargin - last.stop) body) trailing, abandoned := false }
      | .justify =>
        if e.ending = .byReturn ∨ innerSpaces (body ++ trailing) = 0 then
          { cells := body ++ trailing, abandoned := false }
        else if 2 * e.spaceWidth < (e.rightMargin - last.stop) / innerSpaces (body ++ trailing) then
          { cells := body ++ trailing, abandoned := true }
        else
          { cells := withCollapsed (justifyCells ((e.rightMargin - last.stop) / innerSpaces (body ++ trailing))
              ((e.rightMargin - last.stop) % innerSpaces (body ++ trailing)) false 0 0 body) trailing
            abandoned := false } := by
  unfold alignLine
  rw [lastInk_line hlast hink htrailing]
  refine (if_neg h).trans ?_
  rw [bodyCells_line hlast hink htrailing, trailingCells_line hlast hink htrailing] <;> rfl

/-- R34: the inner spaces stand between the first glyph and the last. -/
theorem innerSpaces_line {l r : List Cell} {first : Cell} (hbody : body = l ++ first :: r)
    (hl : ∀ c ∈ l, c.isInk = false) (hfirst : first.isInk = true) : innerSpaces (body ++ trailing) = spacesIn r := by
  have hspace : first.kind ≠ .space := by
    rcases Cell.isInk_iff.1 hfirst with h | h <;> rw [h] <;> exact CellKind.noConfusion
  unfold innerSpaces
  rw [bodyCells_line hlast hink htrailing, hbody,
    List.dropWhile_append_of_pos fun c hc => by rw [hl c hc]; rfl,
    List.dropWhile_cons_of_neg (by rw [hfirst]; exact Bool.false_ne_true)]
  exact spacesIn_cons_of_other hspace r

end

/-- R36: a line moved as a whole, its trailing cells collapsed to its end. -/
theorem withCollapsed_moveRight (hlast : body.getLast? = some last) (n : Nat) (trailing : List Cell) :
    withCollapsed (moveRight n body) trailing = (body.map fun c => { c with start := c.start + n }) ++
      trailing.map fun c => { c with start := last.stop + n, advance := 0 } := by
  have hstop : (((moveRight n body).getLast?).map Cell.stop).getD 0 = last.stop + n := by
    unfold moveRight
    rw [List.getLast?_map, hlast]
    show last.start + n + last.advance = last.start + last.advance + n
    omega
  unfold withCollapsed collapse
  rw [hstop]
  rfl

/-- R35: each cell of the body, with the inner spaces before it. -/
theorem justifyCells_body {l rest : List Cell} {first : Cell} (hl : ∀ c ∈ l, c.isInk = false)
    (hfirst : first.isInk = true) (q r i : Nat) {c : Cell} (hc : (l ++ first :: rest)[i]? = some c) :
    (justifyCells q r false 0 0 (l ++ first :: rest))[i]? = some
      { c with
        start := c.start + spacesIn (((l ++ first :: rest).take i).drop l.length) * q +
          min (spacesIn (((l ++ first :: rest).take i).drop l.length)) r
        advance := c.advance + if l.length < i ∧ c.kind = .space then
          q + (if spacesIn (((l ++ first :: rest).take i).drop l.length) < r then 1 else 0) else 0 } := by
  have hspace : first.kind ≠ .space := by
    rcases Cell.isInk_iff.1 hfirst with h | h <;> rw [h] <;> exact CellKind.noConfusion
  rw [justifyCells_blank hl, justifyCells_first hfirst]
  rcases Nat.lt_or_ge i l.length with hi | hi
  · rw [List.getElem?_append_left hi] at hc ⊢
    have hnone : ((l ++ first :: rest).take i).drop l.length = [] := by
      rw [List.drop_eq_nil_iff, List.length_take]
      omega
    rw [hc, hnone, if_neg (by omega), show spacesIn [] = 0 from rfl, Nat.zero_mul, Nat.zero_min]
    rfl
  · obtain ⟨j, rfl⟩ := Nat.exists_eq_add_of_le hi
    rw [List.getElem?_append_right hi, Nat.add_sub_cancel_left] at hc ⊢
    have htake : ((l ++ first :: rest).take (l.length + j)).drop l.length = (first :: rest).take j := by
      rw [List.take_length_add_append, List.drop_left]
    rw [htake]
    cases j with
    | zero =>
      obtain rfl := Option.some.inj hc
      rw [if_neg (by omega), List.take_zero, show spacesIn [] = 0 from rfl, Nat.zero_mul, Nat.zero_min]
      rfl
    | succ j =>
      rw [List.getElem?_cons_succ] at hc ⊢
      have hwalk := justifyCells_inked q r rest 0 j
      have hbehind : (l.length < l.length + (j + 1) ∧ c.kind = .space) ↔ c.kind = .space :=
        and_iff_right (by omega)
      rw [hc, Nat.zero_mul, Nat.zero_min, Nat.add_zero, Nat.zero_add] at hwalk
      rw [hwalk]
      simp only [List.take_succ_cons, spacesIn_cons_of_other hspace, hbehind]
      rfl

theorem spacesIn_append (l r : List Cell) : spacesIn (l ++ r) = spacesIn l + spacesIn r := by
  unfold spacesIn
  rw [List.filter_append, List.length_append]

/-- R35: before the last glyph stand all the inner spaces. -/
theorem spacesIn_before_last {init l rest : List Cell} {first : Cell} (h : l ++ first :: rest = init ++ [last])
    (hfirst : first.isInk = true) (hink : last.isInk = true) : spacesIn (init.drop l.length) = spacesIn rest := by
  have hother {c : Cell} (h : c.isInk = true) : c.kind ≠ .space := by
    rcases Cell.isInk_iff.1 h with h | h <;> rw [h] <;> exact CellKind.noConfusion
  have hlength : l.length ≤ init.length := by
    have := congrArg List.length h
    simp only [List.length_append, List.length_cons, List.length_nil] at this
    omega
  have hdrop := congrArg (List.drop l.length) h
  rw [List.drop_left, List.drop_append_of_le_length hlength] at hdrop
  have hcount := congrArg spacesIn hdrop
  rw [spacesIn_cons_of_other (hother hfirst), spacesIn_append, spacesIn_cons_of_other (hother hink)] at hcount
  exact hcount.symm

/-- R35: the last glyph ends where the room is used up. -/
theorem justifyCells_last {l rest : List Cell} {first : Cell} (hl : ∀ c ∈ l, c.isInk = false)
    (hfirst : first.isInk = true) (hlast : (l ++ first :: rest).getLast? = some last) (hink : last.isInk = true)
    (hgaps : spacesIn rest ≠ 0) (room : Nat) : ∃ x,
      (justifyCells (room / spacesIn rest) (room % spacesIn rest) false 0 0 (l ++ first :: rest)).getLast? = some x ∧
        x.stop = last.stop + room := by
  have hspace : last.kind ≠ .space := by
    rcases Cell.isInk_iff.1 hink with h | h <;> rw [h] <;> exact CellKind.noConfusion
  obtain ⟨init, hinit⟩ := List.getLast?_eq_some_iff.1 hlast
  have hget : (l ++ first :: rest)[init.length]? = some last := by
    rw [hinit, List.getElem?_append_right (Nat.le_refl _), Nat.sub_self]
    rfl
  have hwalk := justifyCells_body hl hfirst (room / spacesIn rest) (room % spacesIn rest) init.length hget
  have htake : (l ++ first :: rest).take init.length = init := by rw [hinit, List.take_left]
  rw [htake, spacesIn_before_last hinit hfirst hink, if_neg fun h => hspace h.2] at hwalk
  have hget := List.getLast?_eq_getElem? (l := justifyCells (room / spacesIn rest) (room % spacesIn rest) false 0 0
    (l ++ first :: rest))
  rw [length_justifyCells, hinit, List.length_append, List.length_singleton, Nat.add_sub_cancel, ← hinit] at hget
  refine ⟨_, hget.trans hwalk, ?_⟩
  have hshare := Nat.div_add_mod room (spacesIn rest)
  have hrest := Nat.mod_lt room (Nat.pos_of_ne_zero hgaps)
  show last.start + spacesIn rest * (room / spacesIn rest) + min (spacesIn rest) (room % spacesIn rest) +
    (last.advance + 0) = last.start + last.advance + room
  omega

/-- Settles O46: alignment by the mode and the room of the line; justification cell by cell. -/
theorem line_end_alignment_meets_the_margins : Obligations.line_end_alignment_meets_the_margins := by
  unfold Obligations.line_end_alignment_meets_the_margins
  intro flush e l r trailing first last ink hl hfirst hlastink htrailing body hbody hlast line stop room inner gaps
    applies collapsed left
  subst hbody
  have hink : last.isInk = true := Cell.isInk_iff.2 hlastink
  have hinkfirst : first.isInk = true := Cell.isInk_iff.2 hfirst
  have hblank : ∀ c ∈ l, c.isInk = false := fun c hc => isInk_eq_false (hl c hc)
  have htrail : ∀ c ∈ trailing, c.isInk = false := fun c hc => isInk_eq_false (htrailing c hc)
  have hany : ∃ c ∈ line, c.isInk = true :=
    ⟨last, List.mem_append_left _ (List.mem_of_getLast? hlast), hink⟩
  have happlies : ¬(alignmentApplies flush e line = false ∨ e.rightMargin < last.stop) ↔ applies := by
    rw [not_or, Bool.not_eq_false, alignmentApplies_iff hany, Nat.not_lt, and_assoc, and_assoc]
    exact Iff.rfl
  have hgaps : innerSpaces line = gaps := innerSpaces_line hlast hink htrail rfl hblank hinkfirst
  have hend (h : applies) : last.stop + room = e.rightMargin := by
    obtain ⟨-, -, -, hroom⟩ := h
    exact Nat.add_sub_cancel' hroom
  have haligned (h : applies) := alignLine_of_aligned hlast hink htrail (happlies.2 h)
  refine ⟨?_, fun h ha => ?_, fun h ha => ?_, fun h ha hnone => ?_, fun h ha hw hg hover => ?_,
    fun h ha hw hg hfits => ?_⟩
  · intro h
    by_cases happ : applies
    · have hstep := haligned happ
      rw [h.resolve_left (not_not_intro happ)] at hstep
      exact hstep
    · exact alignLine_of_unaligned hlast hink htrail (not_not.1 (mt happlies.1 happ))
  · have hstep := haligned h
    rw [ha] at hstep
    refine hstep.trans ?_
    dsimp only
    rw [withCollapsed_moveRight hlast, show last.stop + (e.rightMargin - last.stop) = e.rightMargin from hend h]
    rfl
  · have hstep := haligned h
    rw [ha] at hstep
    refine hstep.trans ?_
    dsimp only
    rw [withCollapsed_moveRight hlast]
    rfl
  · have hstep := haligned h
    rw [ha] at hstep
    exact hstep.trans (if_pos (hnone.imp_right hgaps.trans))
  · have hstep := haligned h
    rw [ha, show innerSpaces (l ++ first :: r ++ trailing) = spacesIn r from hgaps] at hstep
    exact hstep.trans ((if_neg (not_or.2 ⟨by rw [hw]; exact Ending.noConfusion, hg⟩)).trans (if_pos hover))
  · have hstep := haligned h
    rw [ha, show innerSpaces (l ++ first :: r ++ trailing) = spacesIn r from hgaps] at hstep
    obtain ⟨x, hx, hstop⟩ := justifyCells_last hblank hinkfirst hlast hink hg room
    have hright : x.stop = e.rightMargin := hstop.trans (hend h)
    refine ⟨justifyCells (room / gaps) (room % gaps) false 0 0 (l ++ first :: r), ?_, length_justifyCells .., ?_,
      fun i c hc => justifyCells_body hblank hinkfirst _ _ i hc⟩
    · refine hstep.trans ((if_neg (not_or.2 ⟨by rw [hw]; exact Ending.noConfusion, hg⟩)).trans
        ((if_neg (Nat.not_lt.2 hfits)).trans ?_))
      have hcollapsed : collapse (((justifyCells (room / gaps) (room % gaps) false 0 0
          (l ++ first :: r)).getLast?.map Cell.stop).getD 0) trailing = collapsed := by
        rw [show (justifyCells (room / gaps) (room % gaps) false 0 0 (l ++ first :: r)).getLast? = some x from hx]
        exact congrArg (fun n => collapse n trailing) hright
      exact congrArg (fun cells => ({ cells := _ ++ cells, abandoned := false } : Aligned)) hcollapsed
    · intro c hc
      obtain rfl := Option.some.inj (hx.symm.trans hc)
      exact hright

end

end Sys2Proof.Machine


/-! ## Glyph items that do not wrap, and the matched conditions (O39) -/

namespace Sys2Proof.Machine

variable {s : State}

section Taking

/-- R3, R4: an item of a class that is taken. -/
theorem exec_of_class {c : Instr} {code : Byte} {rest : List Byte} (h : c ∈ itemCommands)
    (hclass : itemClass c code = true) (hqueue : s.composer.keyQueue = code :: rest)
    (hw : (waitsFor s code).any = false) : exec c s =
      .next (textEvent (rearmAfter s.composer.printPoint (itemAction c code (takeHead rest s)))) := by
  rw [exec_itemCommand h, takeItem_of_taken s _ hqueue hclass hw]

theorem lineFull_iff {n : Nat} : lineFull s n = true ↔ 200 < s.line.cells.length + n := decide_eq_true_iff

theorem lineFull_one_iff : lineFull s 1 = true ↔ 200 ≤ s.line.cells.length :=
  lineFull_iff.trans Nat.lt_succ_iff

/-- R172: a one-shot asked for reaches no more than the sounder. -/
theorem askSound_sounder (o : OneShot) (s : State) : ∃ x, askSound o s = { s with sounder := x } := by
  obtain h | ⟨-, -, h⟩ | ⟨-, -, -, h⟩ := askSound_cases s o
  · exact ⟨s.sounder, h⟩
  · exact ⟨_, h⟩
  · exact ⟨_, h⟩

end Taking

section Glyphs

variable {code : Byte} {kind : CellKind}

/-! ### What a glyph code becomes (R5, R27) -/

theorem glyphKind_eq_none (h : glyphPetals s.wheel code = [])
    (hc : ∀ e, compositeOf s.wheel code = some e →
      glyphPetals s.wheel e.base = [] ∨ glyphPetals s.wheel e.accent = []) : glyphKind s.wheel code = none := by
  unfold glyphKind
  rw [if_neg (not_not_intro h)]
  cases he : compositeOf s.wheel code with
  | none => rfl
  | some e =>
    refine if_neg fun g => ?_
    rcases hc e he with h | h
    · exact g.1 h
    · exact g.2 h

/-- R5: a code that the wheel carries, as a glyph or by its entry of the composite table. -/
def carries (w : WheelUnit) (code : Byte) (kind : CellKind) : Prop :=
  kind = .glyph ∧ glyphPetals w code ≠ [] ∨
    kind = .composite ∧ glyphPetals w code = [] ∧
      ∃ e, compositeOf w code = some e ∧ glyphPetals w e.base ≠ [] ∧ glyphPetals w e.accent ≠ []

theorem carries.isInk {w : WheelUnit} (h : carries w code kind) : kind = .glyph ∨ kind = .composite :=
  h.imp (·.1) (·.1)

theorem glyphKind_of_carries {w : WheelUnit} (h : carries w code kind) : glyphKind w code = some kind := by
  unfold glyphKind
  rcases h with ⟨rfl, h⟩ | ⟨rfl, h, e, he, hboth⟩
  · exact if_pos h
  · refine (if_neg (not_not_intro h)).trans ?_
    rw [he]
    exact if_pos hboth

/-- R27: the advance of a cell by the pitch, in PS by the petal struck first. -/
theorem glyphAdvance_of_pitch {f : Format} {w : WheelUnit} {a : Nat} (hkind : carries w code kind)
    (h : f.pitch = .ten ∧ a = 12 ∨ f.pitch = .twelve ∧ a = 10 ∨ f.pitch = .fifteen ∧ a = 8 ∨
      f.pitch = .proportional ∧ ∃ q profile e,
        (glyphPetals w (if kind = .glyph then code else
          match compositeOf w code with | some e => e.base | none => code)).head? = some q ∧
        activeProfile w = some profile ∧ profile.petals[q]? = some e ∧ a = e.width) :
    glyphAdvance f w code = a := by
  unfold glyphAdvance
  rcases h with ⟨hp, rfl⟩ | ⟨hp, rfl⟩ | ⟨hp, rfl⟩ | ⟨hp, q, profile, e, hq, hprofile, he, rfl⟩
  · rw [hp]
    rfl
  · rw [hp]
    rfl
  · rw [hp]
    rfl
  · have hstruck : (if glyphPetals w code ≠ [] then code else ((compositeOf w code).map (·.base)).getD code) =
        if kind = .glyph then code else match compositeOf w code with | some e => e.base | none => code := by
      rcases hkind with ⟨rfl, h⟩ | ⟨rfl, h, -⟩
      · rw [if_pos h, if_pos rfl]
      · rw [if_neg (not_not_intro h), if_neg CellKind.noConfusion]
        cases compositeOf w code <;> rfl
    rw [hp]
    dsimp only [Pitch.advance]
    rw [hstruck]
    generalize (if kind = .glyph then code else match compositeOf w code with | some e => e.base | none => code) = c
      at hq
    obtain ⟨petals, hpetals⟩ := List.head?_eq_some_iff.1 hq
    rw [hpetals]
    show petalWidth w q = e.width
    unfold petalWidth
    rw [hprofile]
    show ((profile.petals[q]?).map (·.width)).getD 0 = e.width
    rw [he]
    rfl

/-! ### Where a glyph item is placed (R30) -/

theorem placeGlyph_of_kind (h : glyphKind s.wheel code = some kind) : placeGlyph s code =
    if s.composer.printPoint + glyphAdvance s.composer.format s.wheel code ≤ s.composer.format.rightMargin then
      .create kind s.composer.printPoint (glyphAdvance s.composer.format s.wheel code) false
    else if 1800 < s.composer.printPoint + glyphAdvance s.composer.format s.wheel code then
      .carriageEnd s.composer.printPoint (glyphAdvance s.composer.format s.wheel code)
    else if s.composer.marginRelease then
      .create kind s.composer.printPoint (glyphAdvance s.composer.format s.wheel code) true
    else if s.composer.format.mode = .direct ∨ s.composer.format.wrap = false ∨ inkBeforeOpenRun s = false then
      .rightStop s.composer.printPoint (glyphAdvance s.composer.format s.wheel code)
    else if s.composer.format.rightMargin < s.composer.format.leftMargin + ((wrapRun s).map (·.advance)).sum +
        glyphAdvance s.composer.format s.wheel code then
      .wrapRefused s.composer.printPoint (glyphAdvance s.composer.format s.wheel code)
    else
      .wrap kind (s.composer.format.leftMargin + ((wrapRun s).map (·.advance)).sum)
        (glyphAdvance s.composer.format s.wheel code) := by
  unfold placeGlyph
  rw [h] <;> rfl

theorem inkBeforeOpenRun_eq_false_iff : inkBeforeOpenRun s = false ↔ ∀ d ∈ composingCells s.line.cells,
    (d.kind = .glyph ∨ d.kind = .composite) → d.id ∈ s.composer.openRun := by
  unfold inkBeforeOpenRun
  rw [List.any_eq_false]
  refine forall₂_congr fun d _ => ?_
  rw [Bool.and_eq_true_iff, Cell.isInk_iff, Bool.not_eq_true', ← Bool.not_eq_true, List.contains_iff_mem, not_and,
    not_not]

theorem takeGlyph_of_none (h : glyphKind s.wheel code = none) :
    takeGlyph code s = askSound .error (raise .key 1 [code] s) := by
  unfold takeGlyph placeGlyph
  rw [h] <;> rfl

theorem takeGlyph_of_create {p a : Nat} {past : Bool} (h : placeGlyph s code = .create kind p a past) :
    takeGlyph code s = if lineFull s 1 then refuseLineFull code s else createGlyph kind code p a past s := by
  unfold takeGlyph
  rw [h]

theorem takeGlyph_of_carriageEnd {p a : Nat} (h : placeGlyph s code = .carriageEnd p a) :
    takeGlyph code s = if lineFull s 1 then refuseLineFull code s else refuseCarriageEnd p (p + a) code s := by
  unfold takeGlyph
  rw [h]

theorem takeGlyph_of_rightStop {p a : Nat} (h : placeGlyph s code = .rightStop p a) :
    takeGlyph code s = if lineFull s 1 then refuseLineFull code s else refuseRightStop p (p + a) code s := by
  unfold takeGlyph
  rw [h]

/-! ### The new cell and its bell (R5, R13, R116) -/

theorem newState_eq (m : ComposingMode) : m.newState = if m = .direct then .pending else .held := by
  cases m <;> rfl

/-- R5: a GLYPH or COMPOSITE cell takes bold and underline. -/
theorem attributedCell_of_ink (h : kind = .glyph ∨ kind = .composite) (start advance : Nat) (past : Bool) :
    attributedCell s kind code start advance past =
      { id := newCellId s, kind := kind, glyph := some code, start := start, advance := advance,
        bold := s.composer.bold, underline := s.composer.underline, pastMargin := past,
        state := if s.composer.format.mode = .direct then .pending else .held, word := none, strikes := [],
        underlineDropped := false, unprintable := false } := by
  have hspace : (kind != .space) = true := by rcases h with rfl | rfl <;> rfl
  unfold attributedCell plainCell
  rw [hspace, Bool.and_true, newState_eq]

theorem judgeBell_of_zone {c : Cell} (hc : c.kind = .glyph ∨ c.kind = .composite)
    (hz : s.composer.format.rightMargin - s.composer.format.bellZone ≤ c.start) (hb : s.zone.bellArmed = true) :
    judgeBell c s = raise .zone 3
      ([2, byte (matched s s.line.composing.leftMargin c.start c.stop)] ++ be16 c.start ++ be16 c.stop ++
        be16 s.composer.printPoint ++ [c.glyph.getD 0])
      (askSound .bell { s with zone := { s.zone with bellArmed := false } }) := by
  unfold judgeBell
  rw [Cell.isInk_iff.2 hc, hb]
  refine (if_pos (Bool.and_eq_true_iff.2 ⟨Bool.and_eq_true_iff.2 ⟨rfl, decide_eq_true hz⟩, rfl⟩)).trans ?_
  obtain ⟨x, hx⟩ := askSound_sounder .bell { s with zone := { s.zone with bellArmed := false } }
  rw [hx]
  rfl

theorem judgeBell_of_silent {c : Cell}
    (h : c.start < s.composer.format.rightMargin - s.composer.format.bellZone ∨ s.zone.bellArmed = false) :
    judgeBell c s = s := by
  refine if_neg fun hring => ?_
  obtain ⟨hzone, harmed⟩ := Bool.and_eq_true_iff.1 hring
  rcases h with h | h
  · exact absurd (of_decide_eq_true (Bool.and_eq_true_iff.1 hzone).2) (Nat.not_le.2 h)
  · exact Bool.false_ne_true (h.symm.trans harmed)

end Glyphs

section Matched

/-! ### The matched conditions (R111) -/

theorem boolCodes_bits : ∀ a b c d e : Bool,
    let m := boolCode a + 2 * boolCode b + 4 * boolCode c + 8 * boolCode d + 16 * boolCode e
    m < 32 ∧ m.testBit 0 = a ∧ m.testBit 1 = b ∧ m.testBit 2 = c ∧ m.testBit 3 = d ∧ m.testBit 4 = e := by
  decide

/-- R111: a watch meets a subject in a position that both cover. -/
theorem Watch.meets_iff_exists {w : Watch} {start stop : Nat} (hspan : 1 ≤ w.span) : w.meets start stop = true ↔
    ∃ x, (x = start ∨ start ≤ x ∧ x < stop) ∧ w.position ≤ x ∧ x < w.position + w.span := by
  rw [meets_iff]
  constructor
  · rintro ⟨hlow, hhigh⟩
    refine ⟨max start w.position, ?_, by omega, by omega⟩
    split at hhigh <;> omega
  · rintro ⟨x, hx, hlow, hhigh⟩
    split <;> omega

end Matched

/-- Settles O39: a glyph item by its placement, and the bits of the matched conditions. -/
theorem glyph_item_creates_a_cell_or_is_refused : Obligations.glyph_item_creates_a_cell_or_is_refused := by
  unfold Obligations.glyph_item_creates_a_cell_or_is_refused
  refine ⟨?item, ?matched⟩
  case matched =>
    intro s left start stop f m meets
    obtain ⟨hm, h0, h1, h2, h3, h4⟩ := boolCodes_bits
      (f.rightMargin < stop || f.rightMargin ≤ start) (start < left) (f.zoneStart ≤ start)
      (s.zone.watch1.meets start stop) (s.zone.watch2.meets start stop)
    refine ⟨hm, ?_, ?_, ?_, fun hspan => ?_, fun hspan => ?_⟩
    · exact (Bool.eq_iff_iff.1 h0).trans (Bool.or_eq_true_iff.trans (or_congr decide_eq_true_iff decide_eq_true_iff))
    · exact (Bool.eq_iff_iff.1 h1).trans decide_eq_true_iff
    · exact (Bool.eq_iff_iff.1 h2).trans decide_eq_true_iff
    · exact (Bool.eq_iff_iff.1 h3).trans (Watch.meets_iff_exists hspan)
    · exact (Bool.eq_iff_iff.1 h4).trans (Watch.meets_iff_exists hspan)
  case item =>
    intro s code rest kind a hqueue hw hglyph f p taken base struck ends zoneEvent full c created
    have hexec := exec_of_class (c := .glyphItem) (by decide) hglyph hqueue hw
    have ends_of {v : State} (h : takeGlyph code taken = v) : ends v := by
      subst h
      exact hexec
    refine ⟨fun hnone hc => ends_of (takeGlyph_of_none (s := taken) (glyphKind_eq_none (s := taken) hnone hc)),
      fun hkind hadvance => ?_⟩
    have hcarries : carries taken.wheel code kind := hkind
    have ha : glyphAdvance taken.composer.format taken.wheel code = a :=
      glyphAdvance_of_pitch (f := f) hcarries hadvance
    have hplace := placeGlyph_of_kind (s := taken) (glyphKind_of_carries hcarries)
    rw [ha] at hplace
    have hlineFull : lineFull taken 1 = true ↔ full := lineFull_one_iff
    have created_of {past : Bool} (h : placeGlyph taken code = .create kind p a past) (hfull : ¬full) :
        created past := by
      have hcell : attributedCell taken kind code p a past = c past := attributedCell_of_ink hcarries.isInk p a past
      have htake := (takeGlyph_of_create h).trans (if_neg (mt hlineFull.1 hfull))
      unfold createGlyph at htake
      rw [hcell] at htake
      refine ⟨_, _, ends_of htake, rfl, fun hz hb => ?_, fun hsilent => ?_⟩
      · exact judgeBell_of_zone (c := c past) hcarries.isInk hz hb
      · exact judgeBell_of_silent (c := c past) hsilent
    refine ⟨fun hfit hfull => ?_, fun hcase hfull => ends_of ?_, fun hover hend hfull => ends_of ?_,
      fun hover hend hm hfull => ?_, fun hover hend hm hcase => ?_⟩
    · exact created_of (hplace.trans (if_pos hfit)) hfull
    · by_cases hfit : p + a ≤ f.rightMargin
      · exact (takeGlyph_of_create (hplace.trans (if_pos hfit))).trans (if_pos (hlineFull.2 hfull))
      by_cases hend : 1800 < p + a
      · exact (takeGlyph_of_carriageEnd (hplace.trans ((if_neg hfit).trans (if_pos hend)))).trans
          (if_pos (hlineFull.2 hfull))
      have hm : s.composer.marginRelease = true := (hcase.resolve_left hfit).resolve_left hend
      exact (takeGlyph_of_create (hplace.trans ((if_neg hfit).trans ((if_neg hend).trans (if_pos hm))))).trans
        (if_pos (hlineFull.2 hfull))
    · exact (takeGlyph_of_carriageEnd (hplace.trans ((if_neg (Nat.not_le.2 hover)).trans (if_pos hend)))).trans
        (if_neg (mt hlineFull.1 hfull))
    · exact created_of (hplace.trans ((if_neg (Nat.not_le.2 hover)).trans ((if_neg (Nat.not_lt.2 hend)).trans
        (if_pos hm)))) hfull
    · have hstop : placeGlyph taken code = .rightStop p a :=
        hplace.trans ((if_neg (Nat.not_le.2 hover)).trans ((if_neg (Nat.not_lt.2 hend)).trans
          ((if_neg (Bool.eq_false_iff.1 hm)).trans
            (if_pos (hcase.imp_right (·.imp_right inkBeforeOpenRun_eq_false_iff.2))))))
      exact ⟨fun hfull => ends_of ((takeGlyph_of_rightStop hstop).trans (if_neg (mt hlineFull.1 hfull))),
        fun hfull => ends_of ((takeGlyph_of_rightStop hstop).trans (if_pos (hlineFull.2 hfull)))⟩

end Sys2Proof.Machine


/-! ## Space, tab and return items, and items that create no cell (O41, O42) -/

namespace Sys2Proof.Machine

variable {s : State}

section NewCells

/-! ### Ids of new cells (R6) -/

/-- R6: fewer than 256 used ids leave a free one. -/
theorem freeId_not_mem {used : List Nat} (h : used.length < 256) (next : Nat) : freeId next used ∉ used := by
  unfold freeId
  cases hfind : ((List.range 256).map fun k => (next + k) % 256).find? fun n => !used.contains n with
  | some n =>
    have hn := List.find?_some hfind
    rw [Bool.not_eq_true', ← Bool.not_eq_true, List.contains_iff_mem] at hn
    exact hn
  | none =>
    have hall : ((List.range 256).map fun k => (next + k) % 256) ⊆ used := by
      intro n hn
      have hused := List.find?_eq_none.1 hfind n hn
      rw [Bool.not_eq_true, Bool.not_eq_false'] at hused
      exact List.contains_iff_mem.1 hused
    have hnodup : ((List.range 256).map fun k => (next + k) % 256).Nodup := by
      refine List.Nodup.map_on (fun a ha b hb hab => ?_) List.nodup_range
      rw [List.mem_range] at ha hb
      omega
    have hlength := (hnodup.subperm hall).length_le
    rw [List.length_map, List.length_range] at hlength
    omega

theorem newCellId_fresh (h : s.line.cells.length < 256) : ∀ d ∈ s.line.cells, d.id ≠ newCellId s := by
  intro d hd hid
  refine freeId_not_mem (used := s.line.cells.map (·.id)) (by rwa [List.length_map]) s.composer.nextCellId ?_
  show newCellId s ∈ _
  rw [← hid]
  exact List.mem_map_of_mem hd

/-! ### The words of a cell that is no letter (R124, R125) -/

/-- R125: a completion leaves no open word and no apostrophe waiting. -/
def wordClosed (x : SpellingUnit) : Prop := x.openWord = .none ∧ x.pendingApostrophe = none

/-- R128: a classification leaves the open word and the apostrophe that waits. -/
theorem classify_openWord_pending (id : Nat) (s : State) :
    (classify id s).spelling.openWord = s.spelling.openWord ∧
      (classify id s).spelling.pendingApostrophe = s.spelling.pendingApostrophe := by
  unfold classify
  split
  next => exact ⟨rfl, rfl⟩
  next =>
    dsimp only
    split
    next => exact ⟨rfl, rfl⟩
    next =>
      split
      next => exact ⟨rfl, rfl⟩
      next =>
        unfold raiseSpell
        rw [raise_spelling]
        exact ⟨rfl, rfl⟩
      next => exact ⟨rfl, rfl⟩
      next => exact ⟨rfl, rfl⟩

theorem classify_wordClosed {id : Nat} (h : wordClosed s.spelling) : wordClosed (classify id s).spelling := by
  obtain ⟨hopen, hpending⟩ := classify_openWord_pending id s
  exact ⟨hopen.trans h.1, hpending.trans h.2⟩

theorem completeOpenWord_closed (s : State) : wordClosed (completeOpenWord s).spelling := by
  unfold completeOpenWord
  split
  next => exact ⟨rfl, rfl⟩
  next => exact classify_wordClosed ⟨rfl, rfl⟩
  next => exact ⟨rfl, rfl⟩

theorem spellCell_of_plain {before : List Cell} {c : Cell} (hcells : s.line.cells = before ++ [c])
    (hfresh : ∀ d ∈ before, d.id ≠ c.id) (hink : c.isInk = false) : spellCell c.id s = completeOpenWord s := by
  refine spellCell_of_other hcells hfresh ?_ ?_
  · rw [hink]
    exact Bool.false_ne_true
  · rintro ⟨⟨h, -⟩, -⟩
    exact Bool.false_ne_true (hink.symm.trans h)

/-! ### A SPACE or TAB cell is created (R14) -/

/-- R14: the state behind a new SPACE or TAB cell, part by part. -/
theorem endingCell_parts {c : Cell} (hfresh : ∀ d ∈ s.line.cells, d.id ≠ c.id) (hink : c.isInk = false) :
    ∃ l sp m cells, releaseEnding c.id (spellCell c.id (appendCell c [] s)) =
      { appendCell c [] s with
        link := l, spelling := sp, memory := m
        line := { s.line with
          cells := cells
          releaseMark := if s.composer.format.mode = .word then some c.id else s.line.releaseMark } } ∧
      wordClosed sp ∧ cells.map fixedPart = (s.line.cells ++ [c]).map fixedPart ∧
      (s.composer.format.mode ≠ .word → cells = s.line.cells ++ [c]) := by
  have hspell := spellCell_of_plain (s := appendCell c [] s) rfl hfresh hink
  have hclosed := completeOpenWord_closed (appendCell c [] s)
  obtain ⟨l, sp, m, hparts⟩ := onlySpelling_completeOpenWord (appendCell c [] s)
  rw [hspell]
  rw [hparts] at hclosed ⊢
  by_cases hmode : s.composer.format.mode = .word
  · rw [if_pos hmode]
    have hfixed := fixedPart_advanceTo (inClosedUnit { appendCell c [] s with
        link := l, spelling := sp, memory := m
        line := { (appendCell c [] s).line with releaseMark := some c.id } }) c.id (s.line.cells ++ [c])
    exact ⟨l, sp, m, _, (if_pos hmode).trans (releaseAdvance_of_mark rfl), hclosed, hfixed,
      fun h => absurd hmode h⟩
  · rw [if_neg hmode]
    exact ⟨l, sp, m, _, if_neg hmode, hclosed, rfl, fun _ => rfl⟩

/-- The release of an ending cell, where the cell stands told. -/
theorem releaseEnding_spellCell {c : Cell} {t : State} (h : t = appendCell c [] s)
    (hfresh : ∀ d ∈ s.line.cells, d.id ≠ c.id) (hink : c.isInk = false) :
    releaseEnding c.id (spellCell c.id (appendCell c [] s)) =
      if s.composer.format.mode = .word then
        releaseAdvance { spellCell c.id t with line := { (spellCell c.id t).line with releaseMark := some c.id } }
      else spellCell c.id t := by
  subst h
  obtain ⟨l, sp, m, hparts⟩ := onlySpelling_completeOpenWord (appendCell c [] s)
  have hmode : (spellCell c.id (appendCell c [] s)).composer.format.mode = s.composer.format.mode := by
    rw [spellCell_of_plain (s := appendCell c [] s) rfl hfresh hink, hparts]
    rfl
  unfold releaseEnding
  rw [hmode]
  rfl

/-! ### Where a space or a tab reaches (R27 to R29) -/

theorem takeSpace_of_create {code : Byte} {p a : Nat} {past : Bool} (hroom : s.line.cells.length < 200)
    (h : placeSpace s = .create p a past) : takeSpace code s = createSpace p a past s := by
  unfold takeSpace
  rw [if_neg (mt lineFull_one_iff.1 (Nat.not_le.2 hroom)), h]

theorem takeSpace_of_carriageEnd {code : Byte} {p a : Nat} (hroom : s.line.cells.length < 200)
    (h : placeSpace s = .carriageEnd p a) : takeSpace code s = refuseCarriageEnd p (p + a) code s := by
  unfold takeSpace
  rw [if_neg (mt lineFull_one_iff.1 (Nat.not_le.2 hroom)), h]

theorem takeTab_of_target {code : Byte} {t : Nat} (hroom : s.line.cells.length < 200) (h : tabTarget s = some t) :
    takeTab code s = createTab t s := by
  unfold takeTab
  rw [if_neg (mt lineFull_one_iff.1 (Nat.not_le.2 hroom)), h]

theorem takeTab_of_none {code : Byte} (hroom : s.line.cells.length < 200) (h : tabTarget s = none) :
    takeTab code s = refuseRightStop s.composer.printPoint s.composer.printPoint code s := by
  unfold takeTab
  rw [if_neg (mt lineFull_one_iff.1 (Nat.not_le.2 hroom)), h]

/-- R28: the target is the least stop beyond the print point within the right margin, else the margin. -/
theorem tabTarget_eq {target : Nat} (hstops : s.zone.tabStops.Pairwise (· < ·))
    (hp : s.composer.printPoint < s.composer.format.rightMargin)
    (h : target ∈ s.zone.tabStops ∧ s.composer.printPoint < target ∧ target ≤ s.composer.format.rightMargin ∧
        (∀ t ∈ s.zone.tabStops, s.composer.printPoint < t → target ≤ t) ∨
      target = s.composer.format.rightMargin ∧
        ∀ t ∈ s.zone.tabStops, t ≤ s.composer.printPoint ∨ s.composer.format.rightMargin < t) :
    tabTarget s = some target := by
  refine (if_neg (Nat.not_le.2 hp)).trans (congrArg some ?_)
  rcases h with ⟨hmem, hbeyond, hwithin, hleast⟩ | ⟨rfl, hnone⟩
  · obtain ⟨before, after, hsplit⟩ := List.append_of_mem hmem
    have hfind : s.zone.tabStops.find? (fun t => s.composer.printPoint < t && t ≤ s.composer.format.rightMargin) =
        some target := by
      rw [List.find?_eq_some_iff_append]
      refine ⟨Bool.and_eq_true_iff.2 ⟨decide_eq_true hbeyond, decide_eq_true hwithin⟩, before, after, hsplit,
        fun t ht => ?_⟩
      have hlt : t < target := by
        rw [hsplit, List.pairwise_append] at hstops
        exact hstops.2.2 t ht target List.mem_cons_self
      have hmemt : t ∈ s.zone.tabStops := hsplit ▸ List.mem_append_left _ ht
      rw [Bool.not_eq_true', Bool.and_eq_false_iff]
      exact .inl (decide_eq_false fun hb => absurd (hleast t hmemt hb) (Nat.not_le.2 hlt))
    rw [hfind]
    rfl
  · have hfind : s.zone.tabStops.find? (fun t => s.composer.printPoint < t && t ≤ s.composer.format.rightMargin) =
        none := by
      rw [List.find?_eq_none]
      intro t ht hcond
      obtain ⟨hb, hw⟩ := Bool.and_eq_true_iff.1 hcond
      have := of_decide_eq_true hb
      have := of_decide_eq_true hw
      rcases hnone t ht with h | h <;> omega
    rw [hfind]
    rfl

theorem rearmAfter_of_unmoved {p : Nat} (h : s.composer.printPoint = p) : rearmAfter p s = s := if_pos h

/-- An event and a one-shot leave the print point where it is. -/
theorem refused_printPoint (o : OneShot) (k : ReportKind) (r : Nat) (d : List Byte) (s : State) :
    (askSound o (raise k r d s)).composer.printPoint = s.composer.printPoint := by
  obtain ⟨x, hx⟩ := askSound_sounder o (raise k r d s)
  obtain ⟨l, hl⟩ := raise_link k r d s
  rw [hx, hl]

end NewCells

section SpaceItems

/-- R5: a SPACE cell takes the underline alone. -/
theorem attributedCell_space (code : Byte) (start advance : Nat) (past : Bool) :
    attributedCell s .space code start advance past =
      { id := newCellId s, kind := .space, glyph := some code, start := start, advance := advance, bold := false,
        underline := s.composer.underline, pastMargin := past,
        state := if s.composer.format.mode = .direct then .pending else .held, word := none, strikes := [],
        underlineDropped := false, unprintable := false } := by
  unfold attributedCell plainCell
  rw [newState_eq, show (CellKind.space != .space) = false from rfl, Bool.and_false]

theorem plainCell_eq (kind : CellKind) (glyph : Option Byte) (start advance : Nat) :
    plainCell s kind glyph start advance =
      { id := newCellId s, kind := kind, glyph := glyph, start := start, advance := advance, bold := false,
        underline := false, pastMargin := false,
        state := if s.composer.format.mode = .direct then .pending else .held, word := none, strikes := [],
        underlineDropped := false, unprintable := false } := by
  unfold plainCell
  rw [newState_eq]

/-- Settles O41: a space item by the right margin, and the items that create no cell. -/
theorem space_attribute_and_unassigned_items : Obligations.space_attribute_and_unassigned_items := by
  unfold Obligations.space_attribute_and_unassigned_items
  refine ⟨?space, ?full, ?plain⟩
  case space =>
    intro s rest hqueue hw hroom f p a arm id taken creates
    have hexec := exec_of_class (c := .spaceItem) (by decide) (by decide) hqueue hw
    have creates_of {advance : Nat} {past : Bool} (h : placeSpace taken = .create p advance past) :
        creates advance past := by
      have hstep : exec .spaceItem s = .next (textEvent (rearmAfter p (createSpace p advance past taken))) :=
        hexec.trans (congrArg (fun v => Host.Outcome.next (textEvent (rearmAfter p v)))
          (takeSpace_of_create (s := taken) hroom h))
      have hcell := attributedCell_space (s := taken) 0x20 p advance past
      unfold createSpace at hstep
      rw [hcell] at hstep
      generalize hc : ({ id := newCellId taken, kind := .space, glyph := some 0x20, start := p, advance := advance,
                         bold := false, underline := taken.composer.underline, pastMargin := past,
                         state := if taken.composer.format.mode = .direct then .pending else .held, word := none,
                         strikes := [], underlineDropped := false, unprintable := false } : Cell) = c at hstep
      have hid : c.id = id := by rw [← hc]; rfl
      have hfresh : ∀ d ∈ taken.line.cells, d.id ≠ c.id := by
        rw [hid]
        exact newCellId_fresh (s := taken) (Nat.lt_trans hroom (by decide))
      have hink : c.isInk = false := by rw [← hc]; rfl
      obtain ⟨l, sp, m, cells, hparts, ⟨hopen, hpending⟩, hfixed, hline⟩ := endingCell_parts hfresh hink
      have hcomposer : (appendCell c [] taken).composer = { s.composer with
          keyQueue := rest, waits := .clear, nextCellId := (id + 1) % 256, printPoint := p + advance,
          openRun := [], marginRelease := arm && !past } := by rw [← hc]; rfl
      refine ⟨c, _, hstep, hc.symm, ?_, fun hm => ?_, ?_, ?_, ?_, ?_, ?_, ?_, ?_, ?_, ?_⟩
      · rw [hparts]
        exact hfixed
      · rw [hparts, if_neg hm, hline hm]
      · rw [hparts, ← hid]
      · rw [hparts]
        exact hopen
      · rw [hparts]
        exact hpending
      · rw [hparts]
        exact hcomposer
      · rw [hparts]
        rfl
      · rw [hparts]
        rfl
      · rw [hparts]
        rfl
      · rw [hparts]
        rfl
      · rw [← hid]
        refine releaseEnding_spellCell ?_ hfresh hink
        rw [hparts]
        rfl
    have hplace : placeSpace taken = if p + a ≤ f.rightMargin then .create p a false
        else if arm then if p + a ≤ 1800 then .create p a true else .carriageEnd p a
        else if p < f.rightMargin then .create p (f.rightMargin - p) false else .create p 0 false := rfl
    refine ⟨fun h => ?_, fun h => ?_, fun h => ?_, fun x h hx => ?_, fun hfit => ?_, fun hover ha hend => ?_,
      fun hover ha hp => ?_, fun hover ha hp => ?_, fun hover hend ha => ?_⟩
    · show spaceAdvance f s.wheel = 12
      unfold spaceAdvance
      rw [h]
      rfl
    · show spaceAdvance f s.wheel = 10
      unfold spaceAdvance
      rw [h]
      rfl
    · show spaceAdvance f s.wheel = 8
      unfold spaceAdvance
      rw [h]
      rfl
    · show spaceAdvance f s.wheel = x.spaceWidth
      unfold spaceAdvance
      rw [h, hx]
      rfl
    · exact creates_of (hplace.trans (if_pos hfit))
    · exact creates_of (hplace.trans ((if_neg (Nat.not_le.2 hover)).trans ((if_pos ha).trans (if_pos hend))))
    · exact creates_of (hplace.trans ((if_neg (Nat.not_le.2 hover)).trans
        ((if_neg (Bool.eq_false_iff.1 ha)).trans (if_pos hp))))
    · exact creates_of (hplace.trans ((if_neg (Nat.not_le.2 hover)).trans
        ((if_neg (Bool.eq_false_iff.1 ha)).trans (if_neg (Nat.not_lt.2 hp)))))
    · refine hexec.trans (congrArg (fun v => Host.Outcome.next (textEvent v)) ?_)
      rw [show itemAction .spaceItem 0x20 (takeHead rest s) = _ from takeSpace_of_carriageEnd (s := taken) hroom
        (hplace.trans ((if_neg (Nat.not_le.2 hover)).trans ((if_pos ha).trans (if_neg (Nat.not_le.2 hend)))))]
      exact rearmAfter_of_unmoved (refused_printPoint ..)
  case full =>
    intro s rest hqueue hw hfull taken
    have hexec := exec_of_class (c := .spaceItem) (by decide) (by decide) hqueue hw
    refine hexec.trans (congrArg (fun v => Host.Outcome.next (textEvent v)) ?_)
    rw [show itemAction .spaceItem 0x20 (takeHead rest s) = refuseLineFull 0x20 taken from
      if_pos (lineFull_one_iff.2 hfull)]
    exact rearmAfter_of_unmoved (refused_printPoint ..)
  case plain =>
    intro s code rest hqueue hw taken x
    refine ⟨?_, ?_, ?_, fun hglyph hcode => ?_⟩
    · rintro rfl
      exact (exec_of_class (c := .boldItem) (by decide) (by decide) hqueue hw).trans
        (congrArg (fun v => Host.Outcome.next (textEvent v)) (rearmAfter_of_unmoved rfl))
    · rintro rfl
      exact (exec_of_class (c := .underlineItem) (by decide) (by decide) hqueue hw).trans
        (congrArg (fun v => Host.Outcome.next (textEvent v)) (rearmAfter_of_unmoved rfl))
    · rintro rfl
      exact (exec_of_class (c := .marginReleaseItem) (by decide) (by decide) hqueue hw).trans
        (congrArg (fun v => Host.Outcome.next (textEvent v)) (rearmAfter_of_unmoved rfl))
    · have hclass : itemClass .unassignedItem code = true := by
        refine (itemClass_iff (by decide) code).2 ?_
        have hnamed : code ∉ namedCodes := by
          intro h
          simp only [namedCodes, List.mem_cons, List.not_mem_nil, or_false] at h hcode
          tauto
        rw [itemCommand_of_not_named hnamed, hglyph]
        rfl
      refine (exec_of_class (c := .unassignedItem) (by decide) hclass hqueue hw).trans
        (congrArg (fun v => Host.Outcome.next (textEvent v)) (rearmAfter_of_unmoved ?_))
      obtain ⟨l, hl⟩ := raise_link .key 0 [code] (taken x)
      exact congrArg (·.composer.printPoint) hl

end SpaceItems

section LineEnds

/-! ### The end of a line (R8, R15, R34) -/

/-- R8: the ending fields as they stand. -/
def lineEnding (how : Ending) (s : State) : LineEnding :=
  { rightMargin := s.composer.format.rightMargin, alignment := s.composer.format.alignment,
    spacing := s.composer.format.spacing, spaceWidth := spaceAdvance s.composer.format s.wheel,
    mode := s.composer.format.mode, ending := how, moved := false }

/-- R8: the state in which the line has ended, aligned to the cells given. -/
def lineEnded (e : LineEnding) (line aligned after : List Cell) (s : State) : State :=
  { s with
    line := { s.line with
      cells := aligned ++ after
      paper := some { s.line.composing with ended := some { e with moved := decide (aligned ≠ line) } }
      composing := { leftMargin := s.composer.format.leftMargin, ended := none, releasedFlush := false } }
    zone := { s.zone with bellArmed := true } }

theorem endLine_eq {how : Ending} {before after : List Cell} {le : Cell} {e : LineEnding}
    (hcells : s.line.cells = before ++ le :: after) (hle : le.kind = .lineEnd)
    (hbefore : ∀ d ∈ before, d.kind ≠ .lineEnd) (he : lineEnding how s = e) : endLine how s =
      if (alignLine s.line.composing.releasedFlush e (before ++ [le])).abandoned then
        raise .line 2 [] (lineEnded e (before ++ [le])
          (alignLine s.line.composing.releasedFlush e (before ++ [le])).cells after s)
      else lineEnded e (before ++ [le])
        (alignLine s.line.composing.releasedFlush e (before ++ [le])).cells after s := by
  subst he
  have hended : endedCells s.line.cells = before ++ [le] := by rw [hcells, endedCells_split hle hbefore]
  have hreplace (new : List Cell) : replaceEnded new s.line.cells = new ++ after := by
    unfold replaceEnded
    rw [hcells, lineEndIndex_split hle hbefore]
    show new ++ (before ++ le :: after).drop (before.length + 1) = new ++ after
    rw [List.drop_length_add_append]
    rfl
  unfold endLine
  dsimp only
  rw [hended, hreplace]
  rfl

/-- R34: outside LINE mode no line is aligned. -/
theorem alignLine_of_mode {flush : Bool} {e : LineEnding} (h : e.mode ≠ .line) (line : List Cell) :
    alignLine flush e line = { cells := line, abandoned := false } := by
  have happlies : alignmentApplies flush e line = false := by
    unfold alignmentApplies
    rw [beq_false_of_ne h]
    rfl
  unfold alignLine
  split
  next => rfl
  next => exact if_pos (.inl happlies)

/-- R35: a line that a RETURN ends is never abandoned. -/
theorem alignLine_byReturn {flush : Bool} {e : LineEnding} (h : e.ending = .byReturn) (line : List Cell) :
    (alignLine flush e line).abandoned = false := by
  unfold alignLine
  split
  next => rfl
  next =>
    dsimp only
    split
    next => rfl
    next =>
      split
      next => rfl
      next => rfl
      next => rfl
      next => rw [if_pos (.inl h)]

/-- R3: a RETURN item is taken where no LINE-END cell stands. -/
theorem no_lineEnd_of_taken (h : (waitsFor s 0x0D).any = false) : ∀ d ∈ s.line.cells, d.kind ≠ .lineEnd := by
  intro d hd hk
  have hwaits : (waitsFor s 0x0D).secondLineEnd = true := by
    show (hasLineEnd s.line.cells && _) = true
    rw [hasLineEnd_iff.2 ⟨d, hd, hk⟩]
    rfl
  unfold Waits.any at h
  rw [hwaits, Bool.or_true] at h
  exact Bool.noConfusion h

/-- R12, R14, R15: the release of an ended line. -/
theorem releaseLine_eq (id : Nat) (s : State) : releaseLine id s =
    if s.composer.format.mode = .direct then s
    else releaseAdvance { s with line := { s.line with releaseMark := some id } } := rfl

/-- R12: the mark's advance changes the cells' states alone. -/
theorem releaseAdvance_marked (id : Nat) (s : State) : ∃ cells,
    releaseAdvance { s with line := { s.line with releaseMark := some id } } =
      { s with line := { s.line with releaseMark := some id, cells := cells } } ∧
      cells.map fixedPart = s.line.cells.map fixedPart :=
  ⟨_, releaseAdvance_of_mark rfl, fixedPart_advanceTo ..⟩

/-- R14, R15: a line end released, part by part, behind the words that it completes. -/
theorem releaseLine_spellLineEnd_parts (id : Nat) (s : State) : ∃ l sp m cells,
    releaseLine id (spellLineEnd s) =
      { s with
        link := l, spelling := sp, memory := m
        line := { s.line with
          cells := cells
          releaseMark := if s.composer.format.mode = .direct then s.line.releaseMark else some id } } ∧
      cells.map fixedPart = s.line.cells.map fixedPart ∧
      (s.composer.format.mode = .direct → cells = s.line.cells) := by
  obtain ⟨l, sp, m, hparts⟩ := onlySpelling_spellLineEnd s
  rw [hparts, releaseLine_eq]
  by_cases hmode : s.composer.format.mode = .direct
  · refine ⟨l, sp, m, s.line.cells, (if_pos hmode).trans ?_, rfl, fun _ => rfl⟩
    rw [if_pos hmode]
  · obtain ⟨cells, hadvance, hfixed⟩ := releaseAdvance_marked id { s with link := l, spelling := sp, memory := m }
    refine ⟨l, sp, m, cells, (if_neg hmode).trans (hadvance.trans ?_), hfixed, fun h => absurd h hmode⟩
    rw [if_neg hmode]

/-- R14: the release of a line end, where the words stand told. -/
theorem releaseLine_told {id : Nat} {x told : State} {mode : ComposingMode} (h : told = x)
    (hmode : x.composer.format.mode = mode) : releaseLine id (spellLineEnd x) =
      if mode = .direct then spellLineEnd told
      else releaseAdvance { spellLineEnd told with
        line := { (spellLineEnd told).line with releaseMark := some id } } := by
  subst h hmode
  have htold : (spellLineEnd told).composer.format.mode = told.composer.format.mode := by
    obtain ⟨l, sp, m, hspell⟩ := onlySpelling_spellLineEnd told
    rw [hspell]
  rw [releaseLine_eq, htold]

/-- Settles O42: a TAB item by its target, a RETURN item by the mode, and both with a full list. -/
theorem tab_and_return_items_reach_and_end : Obligations.tab_and_return_items_reach_and_end := by
  unfold Obligations.tab_and_return_items_reach_and_end
  refine ⟨?tab, ?return_, ?full⟩
  case tab =>
    intro s rest target hqueue hw hroom hstops f p id taken
    have hexec := exec_of_class (c := .tabItem) (by decide) (by decide) hqueue hw
    refine ⟨fun hp => ?_, fun hp htarget => ?_⟩
    · refine hexec.trans (congrArg (fun v => Host.Outcome.next (textEvent v)) ?_)
      rw [show itemAction .tabItem 0x09 (takeHead rest s) = _ from takeTab_of_none (s := taken) hroom (if_pos hp)]
      exact rearmAfter_of_unmoved (refused_printPoint ..)
    · have hbeyond : p < target := by
        rcases htarget with ⟨-, h, -⟩ | ⟨h, -⟩
        · exact h
        · exact h ▸ hp
      have hstep : exec .tabItem s = .next (textEvent (rearmAfter p (createTab target taken))) :=
        hexec.trans (congrArg (fun v => Host.Outcome.next (textEvent (rearmAfter p v)))
          (takeTab_of_target (s := taken) hroom (tabTarget_eq (s := taken) hstops hp htarget)))
      unfold createTab at hstep
      rw [plainCell_eq] at hstep
      generalize hc : ({ id := newCellId taken, kind := .tab, glyph := none, start := taken.composer.printPoint,
                         advance := target - taken.composer.printPoint, bold := false, underline := false,
                         pastMargin := false,
                         state := if taken.composer.format.mode = .direct then .pending else .held, word := none,
                         strikes := [], underlineDropped := false, unprintable := false } : Cell) = c at hstep
      have hid : c.id = id := by rw [← hc]; rfl
      have hfresh : ∀ d ∈ taken.line.cells, d.id ≠ c.id := by
        rw [hid]
        exact newCellId_fresh (s := taken) (Nat.lt_trans hroom (by decide))
      have hink : c.isInk = false := by rw [← hc]; rfl
      have hstop : c.stop = target := by
        rw [← hc]
        exact Nat.add_sub_cancel' (Nat.le_of_lt hbeyond)
      have hpast : c.pastMargin = false := by rw [← hc]
      obtain ⟨l, sp, m, cells, hparts, ⟨hopen, hpending⟩, hfixed, hline⟩ := endingCell_parts hfresh hink
      have hcomposer : (appendCell c [] taken).composer = { s.composer with
          keyQueue := rest, waits := .clear, nextCellId := (id + 1) % 256, printPoint := target, openRun := [] } := by
        unfold appendCell
        dsimp only
        rw [hstop, hpast, hid, Bool.not_false, Bool.and_true]
      refine ⟨c, _, hstep, hc.symm, ?_, fun hm => ?_, ?_, ?_, ?_, ?_, ?_, ?_, ?_, ?_, ?_⟩
      · rw [hparts]
        exact hfixed
      · rw [hparts, if_neg hm, hline hm]
      · rw [hparts, ← hid]
      · rw [hparts]
        exact hopen
      · rw [hparts]
        exact hpending
      · rw [hparts]
        exact hcomposer
      · rw [hparts]
        rfl
      · rw [hparts]
        rfl
      · rw [hparts]
        rfl
      · rw [hparts]
        rfl
      · rw [← hid]
        refine releaseEnding_spellCell ?_ hfresh hink
        rw [hparts]
        rfl
  case return_ =>
    intro s rest e hqueue hw hroom f left he le line ended
    have hexec := exec_of_class (c := .returnItem) (by decide) (by decide) hqueue hw
    have hnone : ∀ d ∈ s.line.cells, d.kind ≠ .lineEnd := no_lineEnd_of_taken hw
    have hended : (alignLine s.line.composing.releasedFlush e line).cells = ended := by
      by_cases hm : f.mode = .line
      · exact (if_pos hm).symm
      · refine Eq.trans ?_ (if_neg hm).symm
        rw [alignLine_of_mode (by rw [he]; exact hm)]
    let t : State := appendCell le [] (takeHead rest s)
    have hline : endLine .byReturn t = lineEnded e line ended [] t := by
      have hend := endLine_eq (how := .byReturn) (s := t) (before := s.line.cells) (after := []) (le := le) (e := e)
        rfl rfl hnone he.symm
      have habandoned : (alignLine t.line.composing.releasedFlush e (s.line.cells ++ [le])).abandoned = false :=
        alignLine_byReturn (by rw [he]) _
      rw [habandoned, show (alignLine t.line.composing.releasedFlush e (s.line.cells ++ [le])).cells = ended from hended]
        at hend
      exact hend
    let x : State := setPrintPoint f.leftMargin (lineEnded e line ended [] t)
    have hcreate : createReturn (takeHead rest s) = releaseLine le.id (spellLineEnd x) := by
      unfold createReturn
      rw [plainCell_eq]
      show releaseLine le.id (spellLineEnd (setPrintPoint (endLine .byReturn t).line.composing.leftMargin
        (endLine .byReturn t))) = _
      rw [hline]
      rfl
    have htake : takeReturn 0x0D (takeHead rest s) = releaseLine le.id (spellLineEnd x) :=
      (if_neg (mt lineFull_one_iff.1 (Nat.not_le.2 hroom))).trans hcreate
    have hcomposer : x.composer = { s.composer with
        keyQueue := rest, waits := .clear, nextCellId := (le.id + 1) % 256, printPoint := f.leftMargin,
        openRun := [] } := by
      have harm : (s.composer.marginRelease && !le.pastMargin) = s.composer.marginRelease := Bool.and_true _
      exact congrArg (fun arm => { s.composer with
        keyQueue := rest, waits := .clear, nextCellId := (le.id + 1) % 256, printPoint := f.leftMargin,
        openRun := [], marginRelease := arm }) harm
    obtain ⟨l, sp, m, cells, hparts, hfixed, hdirect⟩ := releaseLine_spellLineEnd_parts le.id x
    have hcells : x.line.cells = ended := List.append_nil ended
    rw [hcells] at hfixed hdirect
    refine ⟨releaseLine le.id (spellLineEnd x),
      hexec.trans (congrArg (fun v => Host.Outcome.next (textEvent (rearmAfter s.composer.printPoint v))) htake),
      ?_, fun hm => ?_, ?_, ?_, ?_, ?_, ?_, ?_, ?_, ?_, ?_, ?_⟩
    · rw [hparts]
      exact hfixed
    · rw [hparts]
      exact hdirect hm
    · rw [hparts]
      rfl
    · rw [hparts]
      rfl
    · rw [hparts]
      rfl
    · rw [hparts]
      exact hcomposer
    · rw [hparts]
      rfl
    · rw [hparts]
      rfl
    · rw [hparts]
      rfl
    · rw [hparts]
      rfl
    · rw [hparts]
      rfl
    · refine releaseLine_told ?_ rfl
      rw [hparts, ← hcells]
      rfl
  case full =>
    intro s code rest hqueue hw hfull taken full
    have hlineFull : lineFull taken 1 = true := lineFull_one_iff.2 hfull
    refine ⟨?_, ?_⟩
    · rintro rfl
      refine (exec_of_class (c := .tabItem) (by decide) (by decide) hqueue hw).trans
        (congrArg (fun v => Host.Outcome.next (textEvent v)) ?_)
      rw [show itemAction .tabItem 0x09 (takeHead rest s) = full from if_pos hlineFull]
      exact rearmAfter_of_unmoved (refused_printPoint ..)
    · rintro rfl
      refine (exec_of_class (c := .returnItem) (by decide) (by decide) hqueue hw).trans
        (congrArg (fun v => Host.Outcome.next (textEvent v)) ?_)
      rw [show itemAction .returnItem 0x0D (takeHead rest s) = full from if_pos hlineFull]
      exact rearmAfter_of_unmoved (refused_printPoint ..)

end LineEnds

end Sys2Proof.Machine


/-! ## BACKSPACE, RELOCATE and the removal of a held cell (O43) -/

namespace Sys2Proof.Machine

section BackItems

variable {s : State}

/-! ### No apostrophe waits (R124, R127) -/

def noApostrophe (s : State) : Prop := s.spelling.pendingApostrophe = none

theorem noApostrophe_abandonIf {b : Bool} (h : noApostrophe s) : noApostrophe (if b then abandonLookup s else s) := by
  split
  · exact h
  · exact h

theorem noApostrophe_removeWordRecord {id : Nat} (h : noApostrophe s) : noApostrophe (removeWordRecord id s) := by
  unfold removeWordRecord
  refine noApostrophe_abandonIf ?_
  split
  · exact rfl
  · exact h

theorem noApostrophe_reopenWord {id : Nat} (h : noApostrophe s) : noApostrophe (reopenWord id s) := by
  unfold reopenWord
  exact noApostrophe_abandonIf h

theorem noApostrophe_wordLoses {byHeld : Bool} {id : Nat} (h : noApostrophe s) :
    noApostrophe (wordLoses byHeld id s) := by
  unfold wordLoses
  split
  next => exact h
  next =>
    split
    next => exact noApostrophe_removeWordRecord h
    next =>
      dsimp only
      split
      next => exact h
      next =>
        split
        next => exact rfl
        next => exact (classify_openWord_pending id _).2.trans (noApostrophe_reopenWord h)

theorem noApostrophe_shortenRun {gone : List Nat} (h : noApostrophe s) : noApostrophe (shortenRun gone s) := by
  unfold shortenRun
  split
  next =>
    split
    next => exact rfl
    next => exact h
  next => exact h
  next => exact h

theorem noApostrophe_spellRemoved {byHeld : Bool} {removed : List Cell} (h : noApostrophe s) :
    noApostrophe (spellRemoved byHeld removed s) := by
  rw [spellRemoved_of_words rfl]
  have hkept : noApostrophe (apostropheKept (removed.map (·.id)) s) :=
    (congrArg (Option.filter _) h).trans rfl
  refine List.foldlRecOn (motive := noApostrophe) _ _ (noApostrophe_shortenRun hkept) ?_
  intro t ht id _
  exact noApostrophe_wordLoses ht

theorem noApostrophe_removeCells {byHeld : Bool} {gone : Cell → Bool} (h : noApostrophe s) :
    noApostrophe (removeCells byHeld gone s) := by
  have htold := noApostrophe_spellRemoved (byHeld := byHeld) (removed := s.line.cells.filter gone)
    (s := dropCells gone s) h
  unfold removeCells releaseAdvance
  split
  · exact htold
  · exact htold

/-! ### The last cell that meets a condition -/

theorem getLast?_filter_split {p : Cell → Bool} {before after : List Cell} {c : Cell} (hc : p c = true)
    (hafter : ∀ d ∈ after, p d = false) : ((before ++ c :: after).filter p).getLast? = some c := by
  rw [List.filter_append, List.filter_cons_of_pos hc,
    List.filter_eq_nil_iff.2 fun d hd => Bool.eq_false_iff.1 (hafter d hd)]
  exact List.getLast?_concat

theorem getLast?_filter_of_none {p : Cell → Bool} {cells : List Cell} (h : ∀ d ∈ cells, p d = false) :
    (cells.filter p).getLast? = none := by
  rw [List.filter_eq_nil_iff.2 fun d hd => Bool.eq_false_iff.1 (h d hd)]
  rfl

theorem newestHeld_split {before after : List Cell} {c : Cell}
    (hcells : composingCells s.line.cells = before ++ c :: after) (hc : c.state = .held)
    (hafter : ∀ d ∈ after, d.state ≠ .held) : newestHeld s = some c := by
  unfold newestHeld
  rw [hcells]
  exact getLast?_filter_split (beq_iff_eq.2 hc) fun d hd => beq_false_of_ne (hafter d hd)

theorem newestHeld_of_none (h : ∀ d ∈ composingCells s.line.cells, d.state ≠ .held) : newestHeld s = none :=
  getLast?_filter_of_none fun d hd => beq_false_of_ne (h d hd)

/-! ### The mark behind the removal of one cell (R12) -/

theorem markAfterRemoval_of_one {cells : List Cell} {m : Option Nat} {id : Nat} (hn : (cells.map (·.id)).Nodup)
    (h : m ≠ some id) : markAfterRemoval (fun d => d.id == id) cells m = m := by
  cases m with
  | none => rfl
  | some m =>
    by_cases hm : ∃ c ∈ cells, c.id = m
    · obtain ⟨c, hc, rfl⟩ := hm
      obtain ⟨l, r, rfl⟩ := List.append_of_mem hc
      exact markAfterRemoval_of_kept hn (beq_false_of_ne fun hid => h (congrArg some hid))
    · exact markAfterRemoval_of_other fun c hc hid => hm ⟨c, hc, hid⟩

theorem markAfterRemoval_self {l r : List Cell} {c : Cell} (hn : ((l ++ c :: r).map (·.id)).Nodup) :
    markAfterRemoval (fun d => d.id == c.id) (l ++ c :: r) (some c.id) = l.getLast?.map (·.id) := by
  have hl : l.filter (fun d => !(d.id == c.id)) = l :=
    List.filter_eq_self.2 fun d hd => bne_iff_ne.2 (id_ne_of_nodup hn d hd)
  rw [markAfterRemoval_of_gone hn (beq_self_eq_true c.id), hl]

/-! ### The distance of a BACKSPACE, and where a RELOCATE goes (R18, R19, R114) -/

theorem backDistance_split {l r : List Cell} {c : Cell} (hline : composingCells s.line.cells = l ++ c :: r)
    (hc : c.stop = s.composer.printPoint) (hr : ∀ d ∈ r, d.stop ≠ s.composer.printPoint) :
    backDistance s = c.advance := by
  unfold backDistance
  rw [hline, getLast?_filter_split (p := fun d => d.stop == s.composer.printPoint) (beq_iff_eq.2 hc)
    fun d hd => beq_false_of_ne (hr d hd)]

theorem backDistance_of_none (h : ∀ d ∈ composingCells s.line.cells, d.stop ≠ s.composer.printPoint) :
    backDistance s = s.composer.format.nominalAdvance := by
  unfold backDistance
  rw [getLast?_filter_of_none fun d hd => beq_false_of_ne (h d hd)]

theorem nominalAdvance_eq (f : Format) : f.nominalAdvance =
    (match f.pitch with | .ten => 12 | .twelve => 10 | .fifteen => 8 | .proportional => 6) := by
  unfold Format.nominalAdvance
  cases f.pitch <;> rfl

section
variable {distance : Nat} {code : Byte}

theorem backUp_of_fits (h : s.line.composing.leftMargin + distance ≤ s.composer.printPoint) :
    backUp distance code s = setPrintPoint (s.composer.printPoint - distance) s := if_pos h

theorem backUp_of_armed (h : s.composer.printPoint < s.line.composing.leftMargin + distance)
    (harm : s.composer.marginRelease = true) : backUp distance code s =
      { s with composer := { s.composer with
          printPoint := s.composer.printPoint - distance, marginRelease := false } } :=
  (if_neg (Nat.not_le.2 h)).trans (if_pos harm)

theorem backUp_of_stopped (h : s.composer.printPoint < s.line.composing.leftMargin + distance)
    (harm : s.composer.marginRelease = false) : backUp distance code s =
      zoneEvent .leftStop (some 1) s.line.composing.leftMargin (s.composer.printPoint - distance)
        (s.composer.printPoint - distance) code
        (setPrintPoint (if s.line.composing.leftMargin ≤ s.composer.printPoint then s.line.composing.leftMargin
          else s.composer.printPoint) s) :=
  (if_neg (Nat.not_le.2 h)).trans (if_neg (Bool.eq_false_iff.1 harm))

end

theorem foldl_max_eq {l : List Nat} {m a : Nat} (hm : m ∈ l) (ha : a ≤ m) (hmax : ∀ n ∈ l, n ≤ m) :
    l.foldl max a = m := by
  rw [List.foldl_max, List.max?_eq_some_iff.2 ⟨hm, hmax⟩]
  exact Nat.max_eq_right ha

theorem relocateTo_of_greatest {c : Cell} (hc : c ∈ composingCells s.line.cells)
    (h : ∀ d ∈ composingCells s.line.cells, d.stop ≤ c.stop) : relocateTo s = c.stop := by
  have hgreatest : greatestEnd (composingCells s.line.cells) = c.stop :=
    foldl_max_eq (List.mem_map_of_mem hc) (Nat.zero_le _) fun n hn => by
      obtain ⟨d, hd, rfl⟩ := List.mem_map.1 hn
      exact h d hd
  unfold relocateTo
  split
  next hnil => exact absurd (hnil ▸ hc) List.not_mem_nil
  next => exact hgreatest

theorem relocateTo_of_nil (h : composingCells s.line.cells = []) : relocateTo s = s.line.composing.leftMargin := by
  unfold relocateTo
  rw [h]

/-! ### The state in which a correcting item acts -/

/-- R3, R125: the head is taken and the open word completed: nothing but the spelling and its reports changes
beyond the taking. -/
theorem completeOpenWord_taken_parts (rest : List Byte) (s : State) : ∃ l sp m,
    completeOpenWord (takeHead rest s) = { takeHead rest s with link := l, spelling := sp, memory := m } :=
  onlySpelling_completeOpenWord _

/-- R18: a held cell removed, part by part. -/
theorem removeHeld_parts (c : Cell) (s : State) (hpending : noApostrophe s) : ∃ l sp m cells,
    removeHeld c s =
      { s with
        link := l, spelling := sp, memory := m
        line := { s.line with
          cells := cells, releaseMark := markAfterRemoval (fun d => d.id == c.id) s.line.cells s.line.releaseMark }
        composer := { s.composer with openRun := [], printPoint := c.start }
        display := correctWindow (windowAfterRemoval (fun d => d.id == c.id) s.line.cells s.display.windowStart) s } ∧
      sp.pendingApostrophe = none ∧
      cells.map fixedPart = (s.line.cells.filter fun d => d.id != c.id).map fixedPart := by
  obtain ⟨l, sp, m, cells, hparts, hfixed⟩ := removeCells_parts true (fun d => d.id == c.id) (closeRun s)
  have hnone := noApostrophe_removeCells (byHeld := true) (gone := fun d => d.id == c.id) (s := closeRun s) hpending
  rw [hparts] at hnone
  refine ⟨l, sp, m, cells, ?_, hnone, hfixed⟩
  unfold removeHeld
  rw [hparts]
  rfl

/-- Settles O43: BACKSPACE and CORRECT of a held cell, the moves of the print point, and the bell armed. -/
theorem backspace_relocate_and_correct_move_back : Obligations.backspace_relocate_and_correct_move_back := by
  unfold Obligations.backspace_relocate_and_correct_move_back
  refine ⟨?held, ?moves, ?arm⟩
  case held =>
    intro s code rest before after c hqueue hw hcode hline hc hafter hn
    have hclosed := completeOpenWord_closed (takeHead rest s)
    have haction : itemAction (itemCommand code) code (takeHead rest s) =
        removeHeld c (completeOpenWord (takeHead rest s)) := by
      have hheld : newestHeld (completeOpenWord (takeHead rest s)) = some c := by
        obtain ⟨l, sp, m, ht⟩ := completeOpenWord_taken_parts rest s
        rw [ht]
        exact newestHeld_split (s := { takeHead rest s with link := l, spelling := sp, memory := m }) hline hc hafter
      rcases hcode with rfl | rfl
      · show takeBackspace 0x08 (takeHead rest s) = _
        unfold takeBackspace
        simp only [hheld]
      · show takeCorrect 0x1C (takeHead rest s) = _
        unfold takeCorrect
        simp only [hheld]
    have hexec := exec_of_class (itemCommand_mem code) ((itemClass_iff (itemCommand_mem code) code).2 rfl) hqueue hw
    rw [haction] at hexec
    obtain ⟨l, sp, m, cells, hparts, hpending, hfixed⟩ := removeHeld_parts c _ hclosed.2
    obtain ⟨l', sp', m', ht⟩ := completeOpenWord_taken_parts rest s
    refine ⟨_, hexec, ?_, ?_, ?_, fun hmark => ?_, fun before' after' hmark hcells => ?_, ?_, ?_, ?_, ?_, ?_, ?_,
      ?_, rfl⟩
    · rw [hparts, hfixed, ht]
      rfl
    · rw [hparts, ht]
      rfl
    · rw [hparts, ht]
      rfl
    · rw [hparts, ht]
      exact markAfterRemoval_of_one hn hmark
    · rw [hparts, ht]
      have hn' := hn
      rw [hcells] at hn'
      show markAfterRemoval _ s.line.cells s.line.releaseMark = _
      rw [hmark, hcells]
      exact markAfterRemoval_self hn'
    · rw [hparts, ht]
      rfl
    · rw [hparts]
      exact hpending
    all_goals
      rw [hparts, ht]
      rfl
  case moves =>
    intro s rest a f p left line w arm
    obtain ⟨l, sp, m, ht⟩ := completeOpenWord_taken_parts rest s
    have hw_eq (z : Nat) (b : Bool) : w z b =
        { completeOpenWord (takeHead rest s) with
          composer := { (completeOpenWord (takeHead rest s)).composer with
            openRun := [], printPoint := z, marginRelease := b } } := rfl
    rw [ht] at hw_eq
    refine ⟨?_, fun hqueue hwaits => ?_⟩
    · intro c hqueue hwaits hheld ha ends
      have hexec := exec_of_class (c := .backspaceItem) (by decide) (by decide) hqueue hwaits
      have hback : itemAction .backspaceItem 0x08 (takeHead rest s) = backUp a 0x08 (w p arm) := by
        have hdistance : backDistance (takeHead rest s) = a := by
          rcases ha with ⟨l, r, hline, hc, rfl, hr⟩ | ⟨hnone, rfl⟩
          · exact backDistance_split (s := takeHead rest s) hline hc hr
          · exact (backDistance_of_none (s := takeHead rest s) hnone).trans (nominalAdvance_eq f)
        have hnewest : newestHeld (completeOpenWord (takeHead rest s)) = none := by
          rw [ht]
          exact newestHeld_of_none hheld
        show takeBackspace 0x08 (takeHead rest s) = _
        unfold takeBackspace
        simp only [hnewest]
        rw [hw_eq, ← hdistance, ht]
        rfl
      have hends {v : State} (h : backUp a 0x08 (w p arm) = v) : ends v := by
        rw [hback, h] at hexec
        exact hexec
      have hleft : (w p arm).line.composing.leftMargin = left :=
        congrArg (·.line.composing.leftMargin) (hw_eq p arm)
      have harmed : (w p arm).composer.marginRelease = arm := rfl
      refine ⟨fun hfits => hends (backUp_of_fits (s := w p arm) (hleft.symm ▸ hfits)),
        fun hpast harm => hends (backUp_of_armed (s := w p arm) (hleft.symm ▸ hpast) (harmed.trans harm)),
        fun hpast harm => ⟨if left ≤ p then left else p, _, rfl, hends ?_, rfl⟩⟩
      have hstopped := backUp_of_stopped (s := w p arm) (code := 0x08) (hleft.symm ▸ hpast) (harmed.trans harm)
      rw [hleft] at hstopped
      exact hstopped
    · have hexec := exec_of_class (c := .relocateItem) (by decide) (by decide) hqueue hwaits
      have hrelocate : itemAction .relocateItem 0x1E (takeHead rest s) = w (relocateTo (takeHead rest s)) arm := by
        show takeRelocate (takeHead rest s) = _
        unfold takeRelocate
        rw [hw_eq, ht]
        rfl
      rw [hrelocate] at hexec
      have hmoves {z : Nat} (h : relocateTo (takeHead rest s) = z) :
          exec .relocateItem s = .next (textEvent (rearmAfter p (w z arm))) := h ▸ hexec
      exact ⟨fun hnil => hmoves (relocateTo_of_nil (s := takeHead rest s) hnil),
        fun c hc hgreatest => hmoves (relocateTo_of_greatest (s := takeHead rest s) hc hgreatest)⟩
  case arm =>
    intro s before p zoneStart
    refine ⟨fun h => ?_, fun hmoved hleft => (if_neg hmoved).trans (if_pos hleft)⟩
    by_cases hmoved : p = before
    · exact rearmAfter_of_unmoved hmoved
    · exact (if_neg hmoved).trans (if_neg (Nat.not_lt.2 (h.resolve_left hmoved)))

end BackItems

end Sys2Proof.Machine


/-! ## The rules of a correction (R97 to R101) -/

namespace Sys2Proof.Machine

section CorrectionRules

variable {s : State} {code : Byte} {c : Cell}

/-! ### The group of a cell at the strike queue (R66, R69) -/

/-- R66: the cell's group stands at the head and has started. -/
theorem groupInProgress_iff {id : Nat} : groupInProgress s id = true ↔
    s.engine.groupStarted = true ∧ ∃ o os, s.strikeQueue = o :: os ∧ o.cell = id := by
  unfold groupInProgress
  rw [Bool.and_eq_true]
  refine and_congr_right fun _ => ?_
  cases s.strikeQueue with
  | nil => exact ⟨fun h => Bool.noConfusion h, fun ⟨o, os, h, _⟩ => absurd h.symm (List.cons_ne_nil o os)⟩
  | cons o os =>
    refine ⟨fun h => ⟨o, os, rfl, beq_iff_eq.1 h⟩, fun ⟨x, xs, h, hx⟩ => ?_⟩
    obtain ⟨rfl, -⟩ := List.cons_eq_cons.1 h
    exact beq_iff_eq.2 hx

theorem removeGroup_eq (id : Nat) (s : State) : removeGroup id s =
    { s with
      strikeQueue := s.strikeQueue.filter fun o => o.cell != id
      engine := { s.engine with
        groupWait := if s.strikeQueue.head?.map (·.cell) = some id then none else s.engine.groupWait } } := by
  have hhead : (s.strikeQueue.head?.any fun o => o.cell == id) = true ↔
      s.strikeQueue.head?.map (·.cell) = some id := by
    cases s.strikeQueue with
    | nil => exact ⟨fun h => Bool.noConfusion h, fun h => absurd h.symm (Option.some_ne_none id)⟩
    | cons o os => exact beq_iff_eq.trans (Option.some_inj (a := o.cell)).symm
  unfold removeGroup
  by_cases h : s.strikeQueue.head?.map (·.cell) = some id
  · rw [if_pos h]
    exact if_pos (hhead.2 h)
  · rw [if_neg h]
    exact if_neg (mt hhead.1 h)

/-! ### The checks of a lift (R99) -/

theorem checkLift_passed {strikes : List StrikeRecord} (h : ∀ r ∈ strikes, r.wheel = s.wheel.mounted)
    (htape : s.sensors.tape.debounced = .closed) : checkLift s strikes = .passed :=
  (checkLift_of_mounted h).trans (if_neg (Bool.eq_false_iff.1
    ((Sensors.isOpen_eq_false_iff (x := s.sensors) (i := .tape)).2 htape)))

theorem checkLift_tapeOut {strikes : List StrikeRecord} (h : ∀ r ∈ strikes, r.wheel = s.wheel.mounted)
    (htape : s.sensors.tape.debounced ≠ .closed) : checkLift s strikes = .tapeOut := by
  refine (checkLift_of_mounted h).trans (if_pos ?_)
  exact Bool.of_not_eq_false (mt (Sensors.isOpen_eq_false_iff (x := s.sensors) (i := .tape)).1 htape)

theorem checkLift_failed {strikes : List StrikeRecord}
    (h : ¬((∀ r ∈ strikes, r.wheel = s.wheel.mounted) ∧ s.sensors.tape.debounced = .closed)) :
    checkLift s strikes ≠ .passed := by
  by_cases hwheel : ∀ r ∈ strikes, r.wheel = s.wheel.mounted
  · rw [checkLift_tapeOut hwheel fun htape => h ⟨hwheel, htape⟩]
    exact LiftCheck.noConfusion
  · unfold checkLift
    split
    next => exact LiftCheck.noConfusion
    next hfind =>
      refine absurd (fun r hr => ?_) hwheel
      have := List.find?_eq_none.1 hfind r (List.mem_reverse.2 hr)
      rwa [bne_iff_ne, not_not] at this

/-! ### One cell corrected, by its state (R98 to R101) -/

theorem correctCell_of_removed
    (h : c.state = .held ∨ c.state = .pending ∨ c.state = .struck ∧ c.strikes = []) :
    correctCell code c s = correctRemoving c s := by
  unfold correctCell
  rcases h with h | h | ⟨h, hstrikes⟩
  · rw [h]
  · rw [h]
  · rw [h]
    exact if_pos hstrikes

theorem correctCell_of_lifting (h : c.state = .lifting) : correctCell code c s = correctStopped code s := by
  unfold correctCell
  rw [h]

section
variable (hc : c.state = .ordered)
include hc

theorem correctCell_of_notStarted (h : groupInProgress s c.id = false) :
    correctCell code c s = correctRemoving c (removeGroup c.id s) := by
  unfold correctCell
  rw [hc]
  exact if_neg (Bool.eq_false_iff.1 h)

variable (h : groupInProgress s c.id = true)
include h

theorem correctCell_of_deferred (hd : s.correction.deferred = some c.id) :
    correctCell code c s = correctStopped code s := by
  unfold correctCell
  rw [hc]
  exact (if_pos h).trans (if_pos hd)

theorem correctCell_of_started (hd : s.correction.deferred ≠ some c.id) (hcheck : checkLift s c.strikes = .passed) :
    correctCell code c s =
      { state := setPrintPoint c.start { s with correction := { s.correction with deferred := some c.id } }
        accepted := true, removed := [] } := by
  unfold correctCell
  rw [hc]
  refine (if_pos h).trans ((if_neg hd).trans ?_)
  rw [hcheck]

theorem correctCell_of_started_refused (hd : s.correction.deferred ≠ some c.id)
    (hcheck : checkLift s c.strikes ≠ .passed) :
    correctCell code c s = correctRefused (checkLift s c.strikes) c s := by
  unfold correctCell
  rw [hc]
  refine (if_pos h).trans ((if_neg hd).trans ?_)
  generalize checkLift s c.strikes = check at hcheck
  cases check with
  | passed => exact absurd rfl hcheck
  | wheelChanged wheel => rfl
  | tapeOut => rfl

end

section
variable (hc : c.state = .struck) (hstrikes : c.strikes ≠ [])
include hc hstrikes

theorem correctCell_of_waiting (h : ∃ g ∈ s.correction.waiting, g.cell = c.id) :
    correctCell code c s = correctStopped code s := by
  have hany : (s.correction.waiting.any fun g => g.cell == c.id) = true := by
    obtain ⟨g, hg, hid⟩ := h
    exact List.any_eq_true.2 ⟨g, hg, beq_iff_eq.2 hid⟩
  unfold correctCell
  rw [hc]
  exact (if_neg hstrikes).trans (if_pos hany)

variable (h : ∀ g ∈ s.correction.waiting, g.cell ≠ c.id)
include h

theorem correctCell_of_struck_eq : correctCell code c s =
    match checkLift s c.strikes with
    | .passed => { state := setPrintPoint c.start (placeLift (buildLift c) s), accepted := true, removed := [] }
    | failed => correctRefused failed c s := by
  have hany : ¬(s.correction.waiting.any fun g => g.cell == c.id) = true := by
    rw [List.any_eq_true]
    rintro ⟨g, hg, hid⟩
    exact h g hg (beq_iff_eq.1 hid)
  unfold correctCell
  rw [hc]
  exact (if_neg hstrikes).trans (if_neg hany)

theorem correctCell_of_struck (hcheck : checkLift s c.strikes = .passed) : correctCell code c s =
    { state := setPrintPoint c.start (placeLift (buildLift c) s), accepted := true, removed := [] } := by
  rw [correctCell_of_struck_eq hc hstrikes h, hcheck]

theorem correctCell_of_struck_refused (hcheck : checkLift s c.strikes ≠ .passed) :
    correctCell code c s = correctRefused (checkLift s c.strikes) c s := by
  rw [correctCell_of_struck_eq hc hstrikes h]
  generalize checkLift s c.strikes = check at hcheck
  cases check with
  | passed => exact absurd rfl hcheck
  | wheelChanged wheel => rfl
  | tapeOut => rfl

end

/-! ### What a refusal raises (R99, R109) -/

theorem correctRefused_of_changed {l x : List StrikeRecord} {r : StrikeRecord} (h : c.strikes = l ++ r :: x)
    (hr : r.wheel ≠ s.wheel.mounted) (hx : ∀ y ∈ x, y.wheel = s.wheel.mounted) :
    correctRefused (checkLift s c.strikes) c s =
      { state := askSound .error (raise .lift 1
          [byte c.id, byte r.wheel, byte s.wheel.mounted, byte c.strikes.length] s)
        accepted := false, removed := [] } := by
  rw [checkLift_of_changed h hr hx]
  rfl

theorem correctRefused_of_tapeOut (h : ∀ r ∈ c.strikes, r.wheel = s.wheel.mounted)
    (htape : s.sensors.tape.debounced ≠ .closed) :
    correctRefused (checkLift s c.strikes) c s =
      { state := askSound .error (raise .lift 2 [byte c.id, byte c.strikes.length] s)
        accepted := false, removed := [] } := by
  rw [checkLift_tapeOut h htape]
  rfl

/-! ### Where a lift goes (R100) -/

theorem placeLift_of_room (hw : s.correction.waiting = []) (h : s.strikeQueue.length + c.strikes.length ≤ 32) :
    placeLift (buildLift c) s =
      { s with
        strikeQueue := s.strikeQueue ++ (buildLift c).orders
        line := { s.line with cells := s.line.cells.map fun d =>
          if d.id = c.id then { d with state := .lifting } else d } } := by
  refine if_pos ⟨hw, ?_⟩
  rw [buildLift_length]
  show c.strikes.length ≤ 32 - s.strikeQueue.length
  omega

theorem placeLift_of_no_room (hstrikes : c.strikes ≠ [])
    (h : s.correction.waiting ≠ [] ∨ 32 < s.strikeQueue.length + c.strikes.length) :
    placeLift (buildLift c) s =
      { s with correction := { s.correction with waiting := s.correction.waiting ++ [buildLift c] } } := by
  refine if_neg fun ⟨hw, hroom⟩ => ?_
  have hpos := List.length_pos_iff.2 hstrikes
  have hfull := h.resolve_left (not_not.2 hw)
  rw [buildLift_length] at hroom
  change c.strikes.length ≤ 32 - s.strikeQueue.length at hroom
  omega

/-! ### One cell leaves the list (R9, R98) -/

theorem filter_id_eq {cells : List Cell} (hn : (cells.map (·.id)).Nodup) (hc : c ∈ cells) :
    (cells.filter fun d => d.id == c.id) = [c] := by
  obtain ⟨l, r, rfl⟩ := List.append_of_mem hc
  have hr : ∀ d ∈ r, (d.id == c.id) = false := by
    intro d hd
    rw [List.map_append, List.map_cons, List.nodup_append, List.nodup_cons] at hn
    exact beq_false_of_ne fun hid => hn.2.1.1 (hid ▸ List.mem_map_of_mem hd)
  rw [List.filter_append, List.filter_cons_of_pos (p := fun d : Cell => d.id == c.id) (beq_self_eq_true c.id),
    List.filter_eq_nil_iff.2 fun d hd => Bool.eq_false_iff.1 (hr d hd),
    List.filter_eq_nil_iff.2 fun d hd h => id_ne_of_nodup hn d hd (beq_iff_eq.1 h)]
  rfl

theorem filter_id_ne_concat {cells : List Cell} {c : Cell} (hn : ((cells ++ [c]).map (·.id)).Nodup) :
    (cells ++ [c]).filter (fun d => d.id != c.id) = cells := by
  have hkept : cells.filter (fun d => d.id != c.id) = cells :=
    List.filter_eq_self.2 fun d hd => bne_iff_ne.2 (id_ne_of_nodup hn d hd)
  have hgone : [c].filter (fun d => d.id != c.id) = [] :=
    List.filter_eq_nil_iff.2 fun d hd h => bne_iff_ne.1 h (congrArg (·.id) (List.mem_singleton.1 hd))
  rw [List.filter_append, hkept, hgone, List.append_nil]

/-- R31: the open word for wrap without the cell that leaves. -/
theorem openRun_without {cells : List Cell} (hn : (cells.map (·.id)).Nodup) (hc : c ∈ cells) (run : List Nat) :
    (run.filter fun i => !((cells.filter fun d => d.id == c.id).map (·.id)).contains i) = run.filter (· != c.id) := by
  rw [filter_id_eq hn hc]
  refine List.filter_congr fun i _ => ?_
  show (!(i == c.id || false)) = (i != c.id)
  rw [Bool.or_false]
  rfl

/-- R98: what leaves with one cell of the list. -/
theorem dropCells_one {c : Cell} (hn : (s.line.cells.map (·.id)).Nodup) (hc : c ∈ s.line.cells) :
    dropCells (fun d => d.id == c.id) s =
      { s with
        line := { s.line with
          cells := s.line.cells.filter fun d => d.id != c.id
          releaseMark := markAfterRemoval (fun d => d.id == c.id) s.line.cells s.line.releaseMark }
        composer := { s.composer with openRun := s.composer.openRun.filter (· != c.id) }
        display := correctWindow (windowAfterRemoval (fun d => d.id == c.id) s.line.cells s.display.windowStart) s } :=
  congrArg (fun run => { s with
    line := { s.line with
      cells := s.line.cells.filter fun d => d.id != c.id
      releaseMark := markAfterRemoval (fun d => d.id == c.id) s.line.cells s.line.releaseMark }
    composer := { s.composer with openRun := run }
    display := correctWindow (windowAfterRemoval (fun d => d.id == c.id) s.line.cells s.display.windowStart) s })
    (openRun_without hn hc _)

/-- R98: a correction that removes its cell does what every removal does. -/
theorem tellRemoved_correctRemoving (hn : (s.line.cells.map (·.id)).Nodup) (hc : c ∈ s.line.cells) :
    tellRemoved (correctRemoving c s).removed (correctRemoving c s).state =
      removeCells false (fun d => d.id == c.id) (setPrintPoint c.start s) := by
  unfold removeCells
  rw [show (setPrintPoint c.start s).line.cells = s.line.cells from rfl, filter_id_eq hn hc]
  rfl

end CorrectionRules

end Sys2Proof.Machine


/-! ## The CORRECT item by the state of its target (O44) -/

namespace Sys2Proof.Machine

section CorrectItem

variable {s w : State} {rest : List Byte}

theorem composingCells_sublist (cells : List Cell) : (composingCells cells).Sublist cells := by
  unfold composingCells
  split
  · exact List.Sublist.refl _
  · exact List.drop_sublist _ _

theorem composingCells_subset {cells : List Cell} : composingCells cells ⊆ cells :=
  (composingCells_sublist cells).subset

/-! ### The target (R97, R104, R105) -/

section
variable {p : Nat} (hp : s.composer.printPoint = p)
include hp

theorem chooseTarget_of_cell {before after : List Cell} {c : Cell}
    (hline : composingCells s.line.cells = before ++ c :: after) (hc : c.stop = p)
    (hafter : ∀ d ∈ after, d.stop ≠ p) : chooseTarget s = .cell c := by
  subst hp
  unfold chooseTarget
  dsimp only
  rw [hline, getLast?_filter_split (p := fun d => d.stop == s.composer.printPoint) (beq_iff_eq.2 hc)
    fun d hd => beq_false_of_ne (hafter d hd)]

variable (hnone : ∀ d ∈ composingCells s.line.cells, d.stop ≠ p)
include hnone

theorem chooseTarget_of_no_lineEnd (h : ∀ d ∈ s.line.cells, d.kind ≠ .lineEnd) : chooseTarget s = .nothing := by
  subst hp
  have hfind : s.line.cells.find? (fun c => c.kind == .lineEnd) = none :=
    List.find?_eq_none.2 fun d hd hk => h d hd (beq_iff_eq.1 hk)
  unfold chooseTarget
  dsimp only
  rw [getLast?_filter_of_none (p := fun d => d.stop == s.composer.printPoint) fun d hd => beq_false_of_ne (hnone d hd),
    hfind]

variable {before after : List Cell} {e : Cell} (hcells : s.line.cells = before ++ e :: after)
  (he : e.kind = .lineEnd) (hbefore : ∀ d ∈ before, d.kind ≠ .lineEnd)
include hcells he hbefore

theorem chooseTarget_split : chooseTarget s =
    if after = [] ∧ p = s.line.composing.leftMargin then .lineEnd e
    else
      match (before.filter fun c => c.stop == p).getLast? with
      | some c => .beyond c.id
      | none => .nothing := by
  subst hp
  have hfind : s.line.cells.find? (fun c => c.kind == .lineEnd) = some e := by
    rw [hcells, List.find?_eq_some_iff_append]
    refine ⟨beq_iff_eq.2 he, before, after, rfl, fun d hd => ?_⟩
    rw [beq_false_of_ne (hbefore d hd)]
    rfl
  have hline : composingCells s.line.cells = after := by rw [hcells, composingCells_split he hbefore]
  have hpaper : paperCells s.line.cells = before := by rw [hcells, paperCells_split he hbefore]
  unfold chooseTarget
  dsimp only
  rw [getLast?_filter_of_none (p := fun d => d.stop == s.composer.printPoint) fun d hd => beq_false_of_ne (hnone d hd),
    hfind]
  dsimp only
  rw [hline, hpaper] <;> rfl

theorem chooseTarget_of_lineEnd (h : after = [] ∧ p = s.line.composing.leftMargin) : chooseTarget s = .lineEnd e :=
  (chooseTarget_split hp hnone hcells he hbefore).trans (if_pos h)

variable (h : ¬(after = [] ∧ p = s.line.composing.leftMargin))
include h

theorem chooseTarget_of_beyond {l r : List Cell} {c : Cell} (hsplit : before = l ++ c :: r) (hc : c.stop = p)
    (hr : ∀ d ∈ r, d.stop ≠ p) : chooseTarget s = .beyond c.id := by
  refine (chooseTarget_split hp hnone hcells he hbefore).trans ((if_neg h).trans ?_)
  rw [hsplit, getLast?_filter_split (p := fun d => d.stop == p) (beq_iff_eq.2 hc)
    fun d hd => beq_false_of_ne (hr d hd)]

theorem chooseTarget_of_none_before (hfar : ∀ d ∈ before, d.stop ≠ p) : chooseTarget s = .nothing := by
  refine (chooseTarget_split hp hnone hcells he hbefore).trans ((if_neg h).trans ?_)
  rw [getLast?_filter_of_none (p := fun d => d.stop == p) fun d hd => beq_false_of_ne (hfar d hd)]

end

/-! ### Whether a line may be reopened, and its reopening (R105) -/

theorem mayReopen_iff {e : Cell} : mayReopen s e = true ↔
    (e.state = .held ∨ e.state = .pending ∨ e.state = .ordered ∧
      ¬(s.engine.groupStarted = true ∧ ∃ o os, s.strikeQueue = o :: os ∧ o.cell = e.id)) ∧
      ∀ r x, s.line.paper = some r → r.ended = some x → x.moved = false := by
  have hmoved : (!(s.line.paper.bind (·.ended)).any (·.moved)) = true ↔
      ∀ r x, s.line.paper = some r → r.ended = some x → x.moved = false := by
    rw [Bool.not_eq_true', Option.any_eq_false]
    constructor
    · intro h r x hr hx
      refine h x ?_
      rw [hr]
      exact hx
    · intro h x hx
      obtain ⟨r, hr, hx⟩ := Option.bind_eq_some_iff.1 hx
      exact h r x hr hx
  unfold mayReopen
  rw [Bool.and_eq_true, hmoved, Bool.or_eq_true, Bool.or_eq_true, Bool.and_eq_true, beq_iff_eq, beq_iff_eq, beq_iff_eq,
    Bool.not_eq_true', ← Bool.not_eq_true, groupInProgress_iff, or_assoc]

/-- R105: the state in which the line is open again, its cells given. -/
def lineReopened (e : Cell) (before : List Cell) (record : LineRecord) (s : State) : State :=
  { s with
    line := { s.line with
      cells := before, composing := { record with ended := none }, paper := none, releaseMark := none }
    composer := { s.composer with
      printPoint := e.start, openRun := s.composer.openRun.filter (· != e.id) }
    strikeQueue := s.strikeQueue.filter fun o => o.cell != e.id
    engine := (removeGroup e.id s).engine
    display := correctWindow (windowAfterRemoval (fun d => d.id == e.id) s.line.cells s.display.windowStart) s }

theorem reopenLine_eq {e : Cell} {before : List Cell} {record : LineRecord} (hcells : s.line.cells = before ++ [e])
    (hn : (s.line.cells.map (·.id)).Nodup) (hpaper : s.line.paper = some record) :
    reopenLine e s = raise .line 3 [byte before.length] (lineReopened e before record s) := by
  have hmem : e ∈ s.line.cells := hcells ▸ List.mem_append_right _ List.mem_cons_self
  have hleft : s.line.cells.filter (fun d => d.id != e.id) = before := by
    rw [hcells] at hn ⊢
    exact filter_id_ne_concat hn
  have hdrop := dropCells_one (s := removeGroup e.id s) (c := e) (removeGroup_eq e.id s ▸ hn)
    (removeGroup_eq e.id s ▸ hmem)
  rw [removeGroup_eq] at hdrop
  unfold reopenLine lineReopened
  rw [removeGroup_eq, hdrop]
  dsimp only
  rw [hpaper, hleft]
  rfl

/-! ### A CORRECT item without HELD cells, by its target -/

/-- R3, R125: the head taken and the open word completed, what the completion changes given. -/
def takenCompleted (rest : List Byte) (l : Link) (sp : SpellingUnit) (m : MemoryController) (s : State) : State :=
  { takeHead rest s with link := l, spelling := sp, memory := m }

theorem completeOpenWord_taken (rest : List Byte) (s : State) :
    ∃ l sp m, completeOpenWord (takeHead rest s) = takenCompleted rest l sp m s := completeOpenWord_taken_parts rest s

section
variable {code : Byte} {t w : State} (hw : completeOpenWord t = w) (hheld : newestHeld w = none)
include hw hheld

theorem takeCorrect_of_cell {c : Cell} (h : chooseTarget w = .cell c) :
    takeCorrect code t = tellRemoved (correctCell code c w).removed (correctCell code c w).state := by
  unfold takeCorrect
  simp only [hw, hheld, h]

theorem takeCorrect_of_lineEnd {e : Cell} (h : chooseTarget w = .lineEnd e) :
    takeCorrect code t = if mayReopen w e then reopenLine e w else unreachable e.id w := by
  unfold takeCorrect
  simp only [hw, hheld, h]

theorem takeCorrect_of_beyond {id : Nat} (h : chooseTarget w = .beyond id) : takeCorrect code t = unreachable id w := by
  unfold takeCorrect
  simp only [hw, hheld, h]

theorem takeCorrect_of_nothing (h : chooseTarget w = .nothing) :
    takeCorrect code t = nothingToLift code (backUp (backDistance w) code w) := by
  unfold takeCorrect
  simp only [hw, hheld, h]

end

/-- Settles O44: a CORRECT item by the state of the cell that ends at the print point, by the line end before it, and
with no target. -/
theorem correct_item_acts_by_the_state_of_its_target : Obligations.correct_item_acts_by_the_state_of_its_target := by
  unfold Obligations.correct_item_acts_by_the_state_of_its_target
  refine ⟨?cell, ?line⟩
  case cell =>
    intro s w rest before after c hqueue hwaits hheld hn hline hc hafter hweq p moved ends started removes stops
      wheelGood tapeIn refusedBy
    have hexec := exec_of_class (c := .correctItem) (by decide) (by decide) hqueue hwaits
    obtain ⟨l, sp, m, ht⟩ := completeOpenWord_taken rest s
    have hw : completeOpenWord (takeHead rest s) = w := hweq.symm
    have hmem : c ∈ s.line.cells := composingCells_subset (hline ▸ List.mem_append_right _ List.mem_cons_self)
    obtain rfl : w = takenCompleted rest l sp m s := hw.symm.trans ht
    have hends {r : Corrected} {v : State}
        (hr : correctCell 0x1C c (takenCompleted rest l sp m s) = r)
        (hv : tellRemoved r.removed r.state = v) : ends v := by
      subst hr hv
      refine hexec.trans (congrArg (fun v => Host.Outcome.next (textEvent (rearmAfter p v))) ?_)
      exact takeCorrect_of_cell hw (newestHeld_of_none hheld)
        (chooseTarget_of_cell (s := takenCompleted rest l sp m s) rfl hline hc hafter)
    have hremoves {t : State} {queue : List Order} {wait : Option GroupWait}
        (hr : correctCell 0x1C c (takenCompleted rest l sp m s) = correctRemoving c t)
        (hq : t = { takenCompleted rest l sp m s with
          strikeQueue := queue
          engine := { s.engine with groupWait := wait } }) : removes queue wait := by
      subst hq
      obtain ⟨l', sp', m', cells, hparts, hfixed⟩ := removeCells_parts false (fun d => d.id == c.id)
        (setPrintPoint c.start { takenCompleted rest l sp m s with
          strikeQueue := queue
          engine := { s.engine with groupWait := wait } })
      refine ⟨_, hends hr (tellRemoved_correctRemoving hn hmem), rfl, ?_, ?_, ?_, ?_, ?_, ?_, ?_⟩
      · rw [hparts]
        exact hfixed
      · rw [hparts]
        exact congrArg (fun run => { s.composer with
          keyQueue := rest, waits := .clear, printPoint := c.start, openRun := run }) (openRun_without hn hmem _)
      all_goals
        rw [hparts]
        rfl
    have hstops (hr : correctCell 0x1C c (takenCompleted rest l sp m s) =
        correctStopped 0x1C (takenCompleted rest l sp m s)) : stops := hends hr rfl
    have hrefused (hr : correctCell 0x1C c (takenCompleted rest l sp m s) =
        correctRefused (checkLift (takenCompleted rest l sp m s) c.strikes) c
          (takenCompleted rest l sp m s)) : ∃ v, ends v ∧ refusedBy v :=
      ⟨_, hends hr rfl,
        fun _ _ _ h hx hy => congrArg Corrected.state
          (correctRefused_of_changed (s := takenCompleted rest l sp m s) h hx hy),
        fun hwheel htape => congrArg Corrected.state
          (correctRefused_of_tapeOut (s := takenCompleted rest l sp m s) hwheel htape)⟩
    refine ⟨fun h => hremoves (correctCell_of_removed (.inr (.inl h))) rfl, fun h hstart => ?_,
      fun h hstart hd => hstops (correctCell_of_deferred h (groupInProgress_iff.2 hstart) hd),
      fun h hstart hd => ⟨fun hwheel htape => ?_, fun hfail => ?_⟩,
      fun h hbare => hremoves (correctCell_of_removed (.inr (.inr ⟨h, hbare⟩))) rfl,
      fun h hstrikes hwait => hstops (correctCell_of_waiting h hstrikes hwait),
      fun h hstrikes hwait => ⟨fun hfail => ?_, fun hwheel htape => ?_⟩,
      fun h => hstops (correctCell_of_lifting h)⟩
    · exact hremoves (correctCell_of_notStarted h (Bool.eq_false_iff.2 (mt groupInProgress_iff.1 hstart)))
        (removeGroup_eq ..)
    · exact hends (correctCell_of_started h (groupInProgress_iff.2 hstart) hd (checkLift_passed hwheel htape)) rfl
    · exact hrefused (correctCell_of_started_refused h (groupInProgress_iff.2 hstart) hd (checkLift_failed hfail))
    · exact hrefused (correctCell_of_struck_refused h hstrikes hwait (checkLift_failed hfail))
    · have hlift := correctCell_of_struck (s := takenCompleted rest l sp m s) (code := 0x1C) h hstrikes hwait
        (checkLift_passed hwheel htape)
      refine ⟨buildLift c, rfl, buildLift_length c, fun i r hr => buildLift_getElem? hr, fun hempty hroom => ?_,
        fun hfull => ?_⟩
      · exact hends hlift (congrArg (setPrintPoint c.start)
          (placeLift_of_room (s := takenCompleted rest l sp m s) hempty hroom))
      · exact hends hlift (congrArg (setPrintPoint c.start)
          (placeLift_of_no_room (s := takenCompleted rest l sp m s) hstrikes hfull))
  case line =>
    intro s w rest hqueue hwaits hfree hn hweq p left ends unreachable nothing
    have hexec := exec_of_class (c := .correctItem) (by decide) (by decide) hqueue hwaits
    obtain ⟨l, sp, m, ht⟩ := completeOpenWord_taken rest s
    have hw : completeOpenWord (takeHead rest s) = w := hweq.symm
    obtain rfl : w = takenCompleted rest l sp m s := hw.symm.trans ht
    have hends {v : State} (hv : takeCorrect 0x1C (takeHead rest s) = v) : ends v := by
      subst hv
      exact hexec
    have hheld : newestHeld (takenCompleted rest l sp m s) = none :=
      newestHeld_of_none fun d hd => (hfree d hd).1
    have hstop : ∀ d ∈ composingCells s.line.cells, d.stop ≠ p := fun d hd => (hfree d hd).2
    have hnothing (h : chooseTarget (takenCompleted rest l sp m s) = .nothing) : nothing := by
      have htake := takeCorrect_of_nothing (code := 0x1C) hw hheld h
      have hdistance := (backDistance_of_none (s := takenCompleted rest l sp m s) hstop).trans
        (nominalAdvance_eq s.composer.format)
      rw [hdistance] at htake
      have htold {v : State} (hv : backUp _ 0x1C (takenCompleted rest l sp m s) = v) :
          ends (nothingToLift 0x1C v) := hends (htake.trans (congrArg (nothingToLift 0x1C) hv))
      exact ⟨fun hfits => htold (backUp_of_fits hfits), fun hpast harm => htold (backUp_of_armed hpast harm),
        fun hpast harm => ⟨_, rfl, htold (backUp_of_stopped hpast harm)⟩⟩
    refine ⟨fun hnone => hnothing (chooseTarget_of_no_lineEnd rfl hstop hnone), ?_⟩
    intro before e after hcells he hbefore atEnd started mayReopen
    refine ⟨fun hend hclosed => ?_, fun record hend hopen hpaper => ?_, fun l c r hend hsplit hc hr => ?_,
      fun hend hfar => hnothing (chooseTarget_of_none_before rfl hstop hcells he hbefore hend hfar)⟩
    · refine hends ((takeCorrect_of_lineEnd hw hheld (chooseTarget_of_lineEnd rfl hstop hcells he hbefore hend)).trans
        (if_neg ?_))
      exact mt mayReopen_iff.1 hclosed
    · obtain ⟨rfl, hleft⟩ := hend
      have htake := (takeCorrect_of_lineEnd (code := 0x1C) hw hheld
        (chooseTarget_of_lineEnd rfl hstop hcells he hbefore ⟨rfl, hleft⟩)).trans (if_pos (mayReopen_iff.2 hopen))
      exact ⟨lineReopened e before record (takenCompleted rest l sp m s),
        hends (htake.trans (reopenLine_eq hcells hn hpaper)), rfl, rfl, rfl, rfl, rfl, rfl,
        congrArg (·.engine.order) (removeGroup_eq e.id (takenCompleted rest l sp m s)), rfl, rfl⟩
    · exact hends (takeCorrect_of_beyond hw hheld
        (chooseTarget_of_beyond rfl hstop hcells he hbefore hend hsplit hc hr))

end CorrectItem

end Sys2Proof.Machine


/-! ## The WORD-CORRECT item (O45) -/

namespace Sys2Proof.Machine

section WordCorrectItem

variable {s : State} {code : Byte}

/-! ### The walk back along the line (R106) -/

theorem placeFrom_concat (q : Nat) (run : List Cell) (c : Cell) : placeFrom q (run ++ [c]) =
    placeFrom q run ++ [{ c with start := q + (run.map (·.advance)).sum }] := by
  induction run generalizing q with
  | nil => rfl
  | cons d run ih =>
    show { d with start := q } :: placeFrom (q + d.advance) (run ++ [c]) = _
    rw [ih, List.map_cons, List.sum_cons, ← Nat.add_assoc]
    rfl

theorem walkBack_of_none {pick : Cell → Bool} {p : Nat} {cells : List Cell} (n : Nat)
    (h : ∀ d ∈ cells, pick d = true → d.stop ≠ p) : walkBack pick n p cells = ([], p, cells) := by
  have hnone : cellEndingAt pick p cells = none := getLast?_filter_of_none fun d hd =>
    Bool.eq_false_iff.2 fun hpick => h d hd (Bool.and_eq_true_iff.1 hpick).1
      (beq_iff_eq.1 (Bool.and_eq_true_iff.1 hpick).2)
  cases n with
  | zero => rfl
  | succ n =>
    unfold walkBack
    rw [hnone]

/-- R106: cells typed straight on are taken from the last to the first, and nothing before them. -/
theorem walkBack_run {pick : Cell → Bool} {run other : List Cell} {q n : Nat} (hlength : run.length ≤ n)
    (hplaced : placeFrom q run = run) (hpick : ∀ c ∈ run, pick c = true ∧ 0 < c.advance)
    (hother : ∀ c ∈ other, pick c = true → c.stop < q) (hn : ((other ++ run).map (·.id)).Nodup) :
    walkBack pick n (q + (run.map (·.advance)).sum) (other ++ run) = (run.reverse, q, other) := by
  induction run using List.reverseRecOn generalizing n with
  | nil =>
    rw [List.append_nil]
    exact walkBack_of_none n fun d hd hp => Nat.ne_of_lt (hother d hd hp)
  | append_singleton run c ih =>
    rw [List.length_append, List.length_singleton] at hlength
    obtain ⟨m, rfl⟩ : ∃ m, n = m + 1 := ⟨n - 1, by omega⟩
    rw [placeFrom_concat] at hplaced
    obtain ⟨hrun, hc⟩ := List.append_inj' hplaced rfl
    have hstart : c.start = q + (run.map (·.advance)).sum := (congrArg Cell.start (List.cons_eq_cons.1 hc).1).symm
    have hstop : c.stop = q + ((run ++ [c]).map (·.advance)).sum := by
      rw [List.map_append, List.sum_append, ← Nat.add_assoc, ← hstart]
      rfl
    rw [← List.append_assoc] at hn ⊢
    have hending : cellEndingAt pick (q + ((run ++ [c]).map (·.advance)).sum) ((other ++ run) ++ [c]) = some c :=
      getLast?_filter_split
        (Bool.and_eq_true_iff.2 ⟨(hpick c (List.mem_append_right _ List.mem_cons_self)).1, beq_iff_eq.2 hstop⟩)
        fun d hd => absurd hd List.not_mem_nil
    have hleft : ((other ++ run) ++ [c]).filter (fun d => d.id != c.id) = other ++ run :=
      filter_id_ne_concat hn
    have hrest := ih (n := m) (Nat.le_of_succ_le_succ hlength) hrun
      (fun d hd => hpick d (List.mem_append_left _ hd)) 
      (hn.sublist ((List.sublist_append_left _ _).map _))
    unfold walkBack
    rw [hending]
    dsimp only
    rw [hleft, hstart, hrest, List.reverse_append]
    rfl

/-- The walk takes cells out of the line and leaves the others. -/
theorem walkBack_perm (pick : Cell → Bool) (n p : Nat) {cells : List Cell} (hn : (cells.map (·.id)).Nodup) :
    ((walkBack pick n p cells).1 ++ (walkBack pick n p cells).2.2).Perm cells := by
  induction n generalizing p cells with
  | zero => exact List.Perm.refl _
  | succ n ih =>
    unfold walkBack
    split
    next => exact List.Perm.refl _
    next c hc =>
      have hmem : c ∈ cells := (List.mem_filter.1 (List.mem_of_getLast? hc)).1
      have hperm : (c :: cells.filter fun d => d.id != c.id).Perm cells := by
        have hsplit := List.filter_append_perm (fun d => d.id == c.id) cells
        rw [filter_id_eq hn hmem] at hsplit
        exact hsplit
      exact ((ih c.start (hn.sublist (List.filter_sublist.map _))).cons c).trans hperm

/-- R106: the run is a part of the composing line, without repetition. -/
theorem correctionRun_perm (hn : (s.line.cells.map (·.id)).Nodup) :
    ∃ left, (correctionRun s ++ left).Perm (composingCells s.line.cells) := by
  have hline : ((composingCells s.line.cells).map (·.id)).Nodup := hn.sublist ((composingCells_sublist _).map _)
  have hspaces := walkBack_perm (fun c => c.kind == .space) (composingCells s.line.cells).length s.composer.printPoint
    hline
  generalize hs : walkBack (fun c => c.kind == .space) (composingCells s.line.cells).length s.composer.printPoint
    (composingCells s.line.cells) = x at hspaces
  obtain ⟨spaces, p, rest⟩ := x
  have hrest : (rest.map (·.id)).Nodup := ((hspaces.map (·.id)).nodup_iff.2 hline).sublist
    ((List.sublist_append_right spaces rest).map _)
  have hglyphs := walkBack_perm Cell.isInk rest.length p hrest
  refine ⟨(walkBack Cell.isInk rest.length p rest).2.2, ?_⟩
  have hrun : correctionRun s = spaces ++ (walkBack Cell.isInk rest.length p rest).1 := by
    unfold correctionRun
    simp only [hs]
  rw [hrun, List.append_assoc]
  exact (hglyphs.append_left spaces).trans hspaces

theorem placeFrom_append (q : Nat) (l r : List Cell) :
    placeFrom q (l ++ r) = placeFrom q l ++ placeFrom (q + (l.map (·.advance)).sum) r := by
  induction l generalizing q with
  | nil => rfl
  | cons c l ih =>
    show { c with start := q } :: placeFrom (q + c.advance) (l ++ r) = _
    rw [ih, List.map_cons, List.sum_cons, ← Nat.add_assoc]
    rfl

/-- R106: of a line typed straight on, the run is its spaces, then its last word. -/
theorem correctionRun_straight {before word spaces : List Cell} {q : Nat}
    (hline : composingCells s.line.cells = before ++ word ++ spaces)
    (hn : ((before ++ word ++ spaces).map (·.id)).Nodup) (hword : word ≠ []) (hink : ∀ c ∈ word, c.isInk = true)
    (hspace : ∀ c ∈ spaces, c.kind = .space) (hadvance : ∀ c ∈ word ++ spaces, 0 < c.advance)
    (hplaced : placeFrom q (word ++ spaces) = word ++ spaces)
    (hp : s.composer.printPoint = q + ((word ++ spaces).map (·.advance)).sum)
    (hbefore : ∀ c ∈ before, c.stop ≤ q ∧ (c.isInk = true → c.stop ≠ q)) :
    correctionRun s = spaces.reverse ++ word.reverse := by
  rw [placeFrom_append] at hplaced
  obtain ⟨hword_placed, hspaces_placed⟩ := List.append_inj hplaced (length_placeFrom word q)
  have hnotSpace : ∀ c ∈ word, c.kind ≠ .space := by
    intro c hc hk
    have := hink c hc
    unfold Cell.isInk at this
    rw [hk] at this
    exact Bool.noConfusion this
  have hpositive : 0 < (word.map (·.advance)).sum := by
    obtain ⟨c, rest, rfl⟩ := List.exists_cons_of_ne_nil hword
    rw [List.map_cons, List.sum_cons]
    exact Nat.add_pos_left (hadvance c List.mem_cons_self) _
  have hspaces := walkBack_run (pick := fun c => c.kind == .space) (run := spaces) (other := before ++ word)
    (q := q + (word.map (·.advance)).sum) (n := (before ++ word ++ spaces).length)
    (by rw [List.length_append]; exact Nat.le_add_left ..) hspaces_placed
    (fun c hc => ⟨beq_iff_eq.2 (hspace c hc), hadvance c (List.mem_append_right _ hc)⟩)
    (fun c hc hk => (List.mem_append.1 hc).elim
      (fun h => Nat.lt_of_le_of_lt (hbefore c h).1 (Nat.lt_add_of_pos_right hpositive))
      fun h => absurd (beq_iff_eq.1 hk) (hnotSpace c h)) hn
  have hglyphs := walkBack_run (pick := Cell.isInk) (run := word) (other := before) (q := q)
    (n := (before ++ word).length) (by rw [List.length_append]; exact Nat.le_add_left ..) hword_placed
    (fun c hc => ⟨hink c hc, hadvance c (List.mem_append_left _ hc)⟩)
    (fun c hc hi => Nat.lt_of_le_of_ne (hbefore c hc).1 ((hbefore c hc).2 hi))
    (hn.sublist ((List.sublist_append_left _ _).map _))
  have hpoint : s.composer.printPoint = q + (word.map (·.advance)).sum + (spaces.map (·.advance)).sum := by
    rw [hp, List.map_append, List.sum_append, Nat.add_assoc]
  unfold correctionRun
  dsimp only
  rw [hline, hpoint, hspaces]
  dsimp only
  rw [hglyphs]

/-! ### The cells of a run, one after another (R107) -/

theorem correctRun_cons {run : List Cell} {c d : Cell} (hc : c ∈ s.line.cells) (hn : (s.line.cells.map (·.id)).Nodup)
    (hid : d.id = c.id) : correctRun code (d :: run) s =
      if (correctCell code c s).accepted then
        { correctRun code run (correctCell code c s).state with
          removed := (correctCell code c s).removed ++ (correctRun code run (correctCell code c s).state).removed }
      else correctCell code c s := by
  conv_lhs => unfold correctRun
  rw [hid, findCell_of_mem hn hc]

/-- R98, R107: a run of cells never printed leaves the list, and the print point goes back to its last cell. -/
theorem correctRun_unprinted {run : List Cell} (hn : (s.line.cells.map (·.id)).Nodup) (hrun : (run.map (·.id)).Nodup)
    (hmem : ∀ c ∈ run, c ∈ s.line.cells) (hstate : ∀ c ∈ run, c.state = .held ∨ c.state = .pending) :
    ∃ mark opened display p, correctRun code run s =
      { state :=
          { s with
            line := { s.line with
              cells := s.line.cells.filter fun d => !(run.map (·.id)).contains d.id, releaseMark := mark }
            composer := { s.composer with openRun := opened, printPoint := p }
            display := display }
        accepted := true, removed := run } ∧ ∀ c, run.getLast? = some c → p = c.start := by
  induction run generalizing s with
  | nil =>
    refine ⟨s.line.releaseMark, s.composer.openRun, s.display, s.composer.printPoint, ?_, fun c h => ?_⟩
    · have hall : (s.line.cells.filter fun d => !(([] : List Cell).map (·.id)).contains d.id) = s.line.cells :=
        List.filter_eq_self.2 fun d _ => rfl
      rw [hall]
      rfl
    · exact absurd h.symm (Option.some_ne_none c)
  | cons c run ih =>
    have hc := hmem c List.mem_cons_self
    rw [List.map_cons, List.nodup_cons] at hrun
    have hcell : correctCell code c s = correctRemoving c s :=
      correctCell_of_removed ((hstate c List.mem_cons_self).imp_right .inl)
    obtain ⟨mark, opened, display, p, hparts, hp⟩ := ih (s := (correctRemoving c s).state)
      (hn.sublist (List.filter_sublist.map _)) hrun.2
      (fun d hd => List.mem_filter.2 ⟨hmem d (List.mem_cons_of_mem _ hd), bne_iff_ne.2 fun hid =>
        hrun.1 (hid ▸ List.mem_map_of_mem hd)⟩) (fun d hd => hstate d (List.mem_cons_of_mem _ hd))
    have hfilter : (s.line.cells.filter fun d => d.id != c.id).filter (fun d => !(run.map (·.id)).contains d.id) =
        s.line.cells.filter fun d => !((c :: run).map (·.id)).contains d.id := by
      rw [List.filter_filter]
      refine List.filter_congr fun d _ => ?_
      rw [List.map_cons, List.contains_cons, Bool.not_or, Bool.and_comm]
      rfl
    refine ⟨mark, opened, display, p, ?_, fun x hx => ?_⟩
    · rw [correctRun_cons hc hn rfl, hcell]
      refine (if_pos rfl).trans ?_
      rw [hparts, ← hfilter]
      rfl
    · cases run with
      | nil =>
        obtain rfl : c = x := Option.some.inj hx
        exact (congrArg (·.state.composer.printPoint) hparts).symm
      | cons d run => exact hp x hx

/-- R12, R127: what the Spelling Unit is told of the cells removed, part by part. -/
theorem tellRemoved_parts (removed : List Cell) (s : State) : ∃ l sp m cells, tellRemoved removed s =
      { s with link := l, spelling := sp, memory := m, line := { s.line with cells := cells } } ∧
    cells.map fixedPart = s.line.cells.map fixedPart := by
  unfold tellRemoved
  split
  · exact ⟨s.link, s.spelling, s.memory, s.line.cells, rfl, rfl⟩
  · obtain ⟨l, sp, m, h⟩ := onlySpelling_spellRemoved false removed s
    rw [h]
    unfold releaseAdvance
    split
    · exact ⟨l, sp, m, _, rfl, rfl⟩
    · exact ⟨l, sp, m, _, rfl, fixedPart_advanceTo ..⟩

/-! ### A WORD-CORRECT item by its run (R106, R107) -/

section
variable {t w : State} (hw : completeOpenWord t = w)
include hw

theorem takeWordCorrect_of_nil (h : correctionRun w = []) : takeWordCorrect code t = nothingToLift code w := by
  unfold takeWordCorrect
  simp only [hw, h]

theorem takeWordCorrect_of_run (h : correctionRun w ≠ []) : takeWordCorrect code t =
    tellRemoved (correctRun code (correctionRun w) w).removed (correctRun code (correctionRun w) w).state := by
  subst hw
  unfold takeWordCorrect
  dsimp only
  generalize correctionRun (completeOpenWord t) = run at h
  cases run with
  | nil => exact absurd rfl h
  | cons c run => rfl

end

/-- Settles O45: a WORD-CORRECT item by its run, and the run corrected cell by cell. -/
theorem word_correct_item_takes_the_run : Obligations.word_correct_item_takes_the_run := by
  unfold Obligations.word_correct_item_takes_the_run
  refine ⟨?unprinted, ?straight, ?told, fun s => rfl, ?each⟩
  case unprinted =>
    intro s w rest hqueue hwaits hn hweq p
    have hexec := exec_of_class (c := .wordCorrectItem) (by decide) (by decide) hqueue hwaits
    obtain ⟨l, sp, m, ht⟩ := completeOpenWord_taken rest s
    have hw : completeOpenWord (takeHead rest s) = w := hweq.symm
    obtain rfl : w = takenCompleted rest l sp m s := hw.symm.trans ht
    refine ⟨fun hnil => ?_, fun run c hrun hstate => ?_⟩
    · rw [show itemAction .wordCorrectItem 0x1D (takeHead rest s) = _ from takeWordCorrect_of_nil hw hnil] at hexec
      refine hexec.trans (congrArg (fun v => Host.Outcome.next (textEvent v)) (rearmAfter_of_unmoved ?_))
      obtain ⟨x, hx⟩ := raise_link .key 3 ([0x1D] ++ be16 p) (takenCompleted rest l sp m s)
      exact congrArg (·.composer.printPoint) hx
    · have hne : correctionRun (takenCompleted rest l sp m s) ≠ [] := by
        intro hnil
        exact List.append_ne_nil_of_right_ne_nil run (List.cons_ne_nil c []) (hrun.symm.trans hnil)
      have htake := takeWordCorrect_of_run (code := 0x1D) hw hne
      rw [show correctionRun (takenCompleted rest l sp m s) = run ++ [c] from hrun] at htake
      obtain ⟨left, hperm⟩ := correctionRun_perm hn
      rw [hrun] at hperm
      have hline : ((composingCells s.line.cells).map (·.id)).Nodup := hn.sublist ((composingCells_sublist _).map _)
      have hnodup : ((run ++ [c]).map (·.id)).Nodup :=
        ((hperm.map (·.id)).nodup_iff.2 hline).sublist ((List.sublist_append_left _ left).map _)
      have hmem : ∀ d ∈ run ++ [c], d ∈ s.line.cells := fun d hd =>
        composingCells_subset (hperm.subset (List.mem_append_left _ hd))
      obtain ⟨mark, opened, display, q, hparts, hq⟩ := correctRun_unprinted (code := 0x1D)
        (s := takenCompleted rest l sp m s) hn hnodup hmem hstate
      rw [hparts] at htake
      obtain ⟨l', sp', m', cells, htold, hfixed⟩ := tellRemoved_parts (run ++ [c])
        { takenCompleted rest l sp m s with
          line := { s.line with
            cells := s.line.cells.filter fun d => !((run ++ [c]).map (·.id)).contains d.id, releaseMark := mark }
          composer := { (takenCompleted rest l sp m s).composer with openRun := opened, printPoint := q }
          display := display }
      rw [show itemAction .wordCorrectItem 0x1D (takeHead rest s) = _ from htake.trans htold] at hexec
      exact ⟨_, hexec, hfixed, hq c List.getLast?_concat, rfl, rfl, rfl, rfl, rfl, rfl⟩
  case straight =>
    intro s before word spaces q hline hn hword hink hspace hadvance hplaced hp hbefore
    exact correctionRun_straight hline hn hword (fun c hc => Cell.isInk_iff.2 (hink c hc)) hspace hadvance hplaced hp
      fun c hc => ⟨(hbefore c hc).1, fun h => (hbefore c hc).2 (Cell.isInk_iff.1 h)⟩
  case told =>
    intro s w rest hqueue hwaits hne hweq r ends
    have hexec := exec_of_class (c := .wordCorrectItem) (by decide) (by decide) hqueue hwaits
    obtain ⟨l, sp, m, ht⟩ := completeOpenWord_taken rest s
    have hw : completeOpenWord (takeHead rest s) = w := hweq.symm
    obtain rfl : w = takenCompleted rest l sp m s := hw.symm.trans ht
    rw [show itemAction .wordCorrectItem 0x1D (takeHead rest s) = tellRemoved r.removed r.state from
      takeWordCorrect_of_run hw hne] at hexec
    exact ⟨fun hnil => hexec.trans (congrArg (fun v => Host.Outcome.next (textEvent (rearmAfter _ v))) (if_pos hnil)),
      fun hsome => hexec.trans (congrArg (fun v => Host.Outcome.next (textEvent (rearmAfter _ v))) (if_neg hsome))⟩
  case each =>
    intro s run c d hc hn hid all p goesOn stopsWith removes started wheelGood tapeIn refused stops
    have hall : all = _ := correctRun_cons hc hn hid
    have hgoesOn {removed : List Cell} {t : State} (hr : correctCell 0x1D c s =
        { state := setPrintPoint c.start t, accepted := true, removed := removed }) : goesOn removed t := by
      rw [hr] at hall
      exact hall.trans (if_pos rfl)
    have hstopsWith {t : State} (hr : correctCell 0x1D c s = { state := t, accepted := false, removed := [] }) :
        stopsWith t := by
      rw [hr] at hall
      exact hall.trans (if_neg Bool.false_ne_true)
    have hremoves {t : State} {queue : List Order} {wait : Option GroupWait}
        (hr : correctCell 0x1D c s = correctRemoving c t)
        (ht : t = { s with strikeQueue := queue, engine := { s.engine with groupWait := wait } }) : removes queue := by
      subst ht
      have hdrop := dropCells_one (s := { s with
        strikeQueue := queue, engine := { s.engine with groupWait := wait } }) hn hc
      refine ⟨_, hgoesOn (hr.trans (congrArg (fun t => Corrected.mk (setPrintPoint c.start t) true [c]) hdrop)), rfl, rfl,
        markAfterRemoval_of_one hn, fun l r hmark hcells => ?_, rfl, rfl, rfl, rfl, rfl, rfl, rfl⟩
      show markAfterRemoval (fun d => d.id == c.id) s.line.cells s.line.releaseMark = _
      rw [hcells] at hn
      rw [hmark, hcells]
      exact markAfterRemoval_self hn
    have hrefused (hr : checkLift s c.strikes ≠ .passed →
        correctCell 0x1D c s = correctRefused (checkLift s c.strikes) c s) : refused :=
      ⟨fun l r x h hr' hx => hstopsWith
          ((hr (checkLift_of_changed h hr' hx ▸ LiftCheck.noConfusion)).trans (correctRefused_of_changed h hr' hx)),
        fun hwheel htape => hstopsWith ((hr (checkLift_failed fun h => htape h.2)).trans
          (correctRefused_of_tapeOut hwheel htape))⟩
    have hstops (hr : correctCell 0x1D c s = correctStopped 0x1D s) : stops := hstopsWith hr
    refine ⟨fun h => hremoves (correctCell_of_removed h) rfl, fun h hstart => ?_,
      fun h hstart hd => hstops (correctCell_of_deferred h (groupInProgress_iff.2 hstart) hd),
      fun h hstart hd => ⟨fun hwheel htape => ?_,
        hrefused (correctCell_of_started_refused h (groupInProgress_iff.2 hstart) hd)⟩,
      fun h hstrikes hwait => hstops (correctCell_of_waiting h hstrikes hwait),
      fun h hstrikes hwait => ⟨hrefused (correctCell_of_struck_refused h hstrikes hwait), fun hwheel htape => ?_⟩,
      fun h => hstops (correctCell_of_lifting h)⟩
    · exact hremoves (correctCell_of_notStarted h (Bool.eq_false_iff.2 (mt groupInProgress_iff.1 hstart)))
        (removeGroup_eq ..)
    · exact hgoesOn (correctCell_of_started h (groupInProgress_iff.2 hstart) hd (checkLift_passed hwheel htape))
    · have hlift := correctCell_of_struck (code := 0x1D) h hstrikes hwait (checkLift_passed hwheel htape)
      refine ⟨buildLift c, rfl, buildLift_length c, fun i r hr => buildLift_getElem? hr, fun hempty hroom => ?_,
        fun hfull => ?_⟩
      · rw [placeLift_of_room hempty hroom] at hlift
        exact hgoesOn hlift
      · rw [placeLift_of_no_room hstrikes hfull] at hlift
        exact hgoesOn hlift

end WordCorrectItem

end Sys2Proof.Machine


/-! ## A glyph item that wraps (O40) -/

namespace Sys2Proof.Machine

section Wrap

variable {s : State}

/-! ### The words told of a new cell (R124) -/

/-- Of the cells no more than the words change, and beside them the spelling and its reports. -/
def OnlyWords (s t : State) : Prop := ∃ l sp m, ∃ g : Cell → Option Nat, t =
  { s with link := l, spelling := sp, memory := m
           line := { s.line with cells := s.line.cells.map fun d => { d with word := g d } } }

theorem OnlySpelling.onlyWords {t : State} (h : OnlySpelling s t) : OnlyWords s t := by
  obtain ⟨l, sp, m, rfl⟩ := h
  have hsame : (s.line.cells.map fun d => { d with word := d.word }) = s.line.cells := List.map_id _
  refine ⟨l, sp, m, (·.word), ?_⟩
  rw [hsame]

theorem OnlyWords.trans {t u : State} (h : OnlyWords s t) (g : OnlyWords t u) : OnlyWords s u := by
  obtain ⟨l, sp, m, f, rfl⟩ := h
  obtain ⟨l', sp', m', f', rfl⟩ := g
  refine ⟨l', sp', m', fun d => f' { d with word := f d }, ?_⟩
  rw [List.map_map]
  rfl

/-- The words of some cells are set. -/
theorem onlyWords_setWords (s : State) (sp : SpellingUnit) {f : Cell → Cell} {g : Cell → Option Nat}
    (h : ∀ d, f d = { d with word := g d }) :
    OnlyWords s { s with spelling := sp, line := { s.line with cells := s.line.cells.map f } } := by
  obtain rfl : f = fun d => { d with word := g d } := funext h
  exact ⟨s.link, sp, s.memory, g, rfl⟩

theorem onlyWords_joinOpenWord (ids : List Nat) (s : State) : OnlyWords s (joinOpenWord ids s) := by
  unfold joinOpenWord
  split
  next => exact (OnlySpelling.refl s).onlyWords
  next id _ =>
    refine onlyWords_setWords s _ (g := fun d => if ids.contains d.id then some id else d.word) fun d => ?_
    split <;> rfl
  next => exact (onlySpelling_setSpelling _ s).onlyWords

theorem onlyWords_beginWord (cell : Nat) (s : State) : OnlyWords s (beginWord cell s) := by
  unfold beginWord
  split
  · exact ((onlySpelling_setSpelling _ s).trans (onlySpelling_raise ..)).onlyWords
  · refine onlyWords_setWords s _ (g := fun d => if d.id = cell then
      some (freeId s.spelling.nextWordId (s.spelling.words.map (·.id))) else d.word) fun d => ?_
    split <;> rfl

theorem onlyWords_spellCell (cell : Nat) (s : State) : OnlyWords s (spellCell cell s) := by
  unfold spellCell
  split
  next => exact (OnlySpelling.refl s).onlyWords
  next =>
    dsimp only
    split
    · split
      · exact onlyWords_joinOpenWord ..
      · split
        · exact onlyWords_joinOpenWord ..
        · exact (onlySpelling_completeOpenWord s).onlyWords.trans (onlyWords_beginWord ..)
    · split
      · exact (onlySpelling_setSpelling _ s).onlyWords
      · exact (onlySpelling_completeOpenWord s).onlyWords

/-! ### What alignment leaves of a cell (R34 to R36) -/

section
variable {α : Type} {part : Cell → α} (hpart : ∀ c p a, part { c with start := p, advance := a } = part c)
include hpart

theorem map_collapse (at_ : Nat) (l : List Cell) : (collapse at_ l).map part = l.map part := by
  unfold collapse
  rw [List.map_map]
  exact List.map_congr_left fun c _ => hpart c _ _

theorem map_moveRight (by_ : Nat) (l : List Cell) : (moveRight by_ l).map part = l.map part := by
  unfold moveRight
  rw [List.map_map]
  exact List.map_congr_left fun c _ => hpart c _ c.advance

theorem map_justifyCells (q r : Nat) (l : List Cell) :
    ∀ inked k gain, (justifyCells q r inked k gain l).map part = l.map part := by
  induction l with
  | nil => intros; rfl
  | cons c l ih =>
    intro inked k gain
    unfold justifyCells
    split
    · exact List.cons_eq_cons.2 ⟨hpart c _ _, ih ..⟩
    · exact List.cons_eq_cons.2 ⟨hpart c _ c.advance, ih ..⟩

theorem map_withCollapsed {body line : List Cell} (h : body.map part = (bodyCells line).map part) :
    (withCollapsed body (trailingCells line)).map part = line.map part := by
  conv_rhs => rw [← bodyCells_append_trailingCells line]
  unfold withCollapsed
  rw [List.map_append, List.map_append, h, map_collapse hpart]

/-- Alignment changes where a cell starts and how far it reaches, and nothing else. -/
theorem map_alignLine (flush : Bool) (e : LineEnding) (line : List Cell) :
    (alignLine flush e line).cells.map part = line.map part := by
  unfold alignLine
  split
  next => rfl
  next =>
    split
    next => rfl
    next =>
      dsimp only
      split
      next => rfl
      next => exact map_withCollapsed hpart (map_moveRight hpart ..)
      next => exact map_withCollapsed hpart (map_moveRight hpart ..)
      next =>
        split
        next => rfl
        next =>
          split
          next => rfl
          next => exact map_withCollapsed hpart (map_justifyCells hpart ..)

end

/-! ### The line that has ended, told by its kinds (R7) -/

section
variable {line before : List Cell} {e : Cell} (h : line.map (·.kind) = (before ++ [e]).map (·.kind))
  (he : e.kind = .lineEnd) (hbefore : ∀ d ∈ before, d.kind ≠ .lineEnd)
include h he hbefore

theorem lineEnd_of_kinds : ∃ l x, line = l ++ [x] ∧ x.kind = .lineEnd ∧ ∀ d ∈ l, d.kind ≠ .lineEnd := by
  rw [List.map_append] at h
  obtain ⟨l, r, rfl, hl, hr⟩ := List.map_eq_append_iff.1 h
  obtain ⟨x, rest, rfl, hx, hrest⟩ := List.map_eq_cons_iff.1 hr
  obtain rfl := List.map_eq_nil_iff.1 hrest
  refine ⟨l, x, rfl, hx.trans he, fun d hd hk => ?_⟩
  obtain ⟨b, hb, hkind⟩ := List.mem_map.1 (hl ▸ List.mem_map_of_mem (f := fun d : Cell => d.kind) hd)
  exact hbefore b hb (hkind.trans hk)

theorem endedCells_of_kinds (after : List Cell) : endedCells (line ++ after) = line := by
  obtain ⟨l, x, rfl, hx, hl⟩ := lineEnd_of_kinds h he hbefore
  rw [List.append_assoc]
  exact endedCells_split hx hl

theorem composingCells_of_kinds (after : List Cell) : composingCells (line ++ after) = after := by
  obtain ⟨l, x, rfl, hx, hl⟩ := lineEnd_of_kinds h he hbefore
  rw [List.append_assoc]
  exact composingCells_split hx hl

end

theorem releaseCell_kind (c : Cell) : (releaseCell c).kind = c.kind := by
  unfold releaseCell
  split <;> rfl

/-- R12: the advance reaches no cell behind the mark. -/
theorem advanceTo_split (closed : Cell → Bool) {e : Cell} (l r : List Cell) :
    ∃ l', advanceTo closed e.id (l ++ e :: r) = l' ++ r ∧ l'.map (·.kind) = (l ++ [e]).map (·.kind) := by
  induction l with
  | nil =>
    by_cases hstop : e.isHeld = true ∧ closed e = true
    · exact ⟨[e], advanceTo_cons_of_stops r hstop, rfl⟩
    · exact ⟨[releaseCell e], advanceTo_cons_of_mark r hstop, List.cons_eq_cons.2 ⟨releaseCell_kind e, rfl⟩⟩
  | cons c l ih =>
    have hwhole : c :: l ++ e :: r = c :: (l ++ [e]) ++ r := (List.append_assoc (c :: l) [e] r).symm
    by_cases hstop : c.isHeld = true ∧ closed c = true
    · exact ⟨c :: (l ++ [e]), (advanceTo_cons_of_stops _ hstop).trans hwhole, rfl⟩
    · by_cases hmark : c.id = e.id
      · refine ⟨releaseCell c :: (l ++ [e]), ?_, List.cons_eq_cons.2 ⟨releaseCell_kind c, rfl⟩⟩
        rw [← hmark]
        refine (advanceTo_cons_of_mark _ hstop).trans (congrArg (releaseCell c :: ·) ?_)
        exact (List.append_assoc l [e] r).symm
      · obtain ⟨l', hadvance, hkinds⟩ := ih
        exact ⟨releaseCell c :: l', (advanceTo_cons_of_passed _ hstop hmark).trans
          (congrArg (releaseCell c :: ·) hadvance), List.cons_eq_cons.2 ⟨releaseCell_kind c, hkinds⟩⟩

/-- R12: behind the LINE-END cell at the mark the cells stay as they are held. -/
theorem held_behind_mark (closed : Cell → Bool) {l r : List Cell} {x : Cell} (g : Cell → Option Nat)
    (hx : x.kind = .lineEnd) (hl : ∀ d ∈ l, d.kind ≠ .lineEnd) (hr : ∀ d ∈ r, d.state = .held) :
    ∀ d ∈ composingCells (advanceTo closed x.id ((l ++ [x] ++ r).map fun d => { d with word := g d })),
      d.state = .held := by
  obtain ⟨l', hadvance, hkinds⟩ := advanceTo_split closed (e := { x with word := g x })
    (l.map fun d => { d with word := g d }) (r.map fun d => { d with word := g d })
  have hcells : (l ++ [x] ++ r).map (fun d => { d with word := g d }) =
      l.map (fun d => { d with word := g d }) ++ { x with word := g x } :: r.map (fun d => { d with word := g d }) := by
    rw [List.append_assoc, List.map_append]
    rfl
  have hbefore : ∀ d ∈ l.map (fun d => { d with word := g d }), d.kind ≠ .lineEnd := by
    intro d hd
    obtain ⟨b, hb, rfl⟩ := List.mem_map.1 hd
    exact hl b hb
  rw [hcells, hadvance, composingCells_of_kinds hkinds hx hbefore]
  intro d hd
  obtain ⟨b, hb, rfl⟩ := List.mem_map.1 hd
  exact hr b hb

/-- R14, R32: a line end released behind the words that it completes, part by part. -/
theorem releaseLine_onlyWords_parts {told : State} (id : Nat) (h : OnlyWords s told)
    (hmode : s.composer.format.mode ≠ .direct) : ∃ l sp m, ∃ g : Cell → Option Nat, ∃ closed : Cell → Bool,
      releaseLine id told =
        { s with
          link := l, spelling := sp, memory := m
          line := { s.line with
            cells := advanceTo closed id (s.line.cells.map fun d => { d with word := g d })
            releaseMark := some id } } := by
  obtain ⟨l, sp, m, g, rfl⟩ := h
  exact ⟨l, sp, m, g, _, (if_neg hmode).trans (releaseAdvance_of_mark rfl)⟩

/-! ### The open word as a wrap takes it (R31 to R33) -/

section
variable {before run : List Cell} (hcells : s.line.cells = before ++ run) (hn : (s.line.cells.map (·.id)).Nodup)
include hcells hn

theorem id_notMem_run : ∀ d ∈ before, d.id ∉ run.map (·.id) := by
  rw [hcells, List.map_append, List.nodup_append] at hn
  exact fun d hd hmem => hn.2.2 d.id (List.mem_map_of_mem hd) d.id hmem rfl

theorem wrapRun_eq (h : s.composer.openRun = run.map (·.id) ∧ (∀ c ∈ run, c.state = .held) ∨
    run = [] ∧ ∃ c ∈ before, c.id ∈ s.composer.openRun ∧ c.state ≠ .held) : wrapRun s = run := by
  unfold wrapRun
  rcases h with ⟨hopen, hheld⟩ | ⟨rfl, c, hc, hopen, hstate⟩
  · have hbefore := List.filter_eq_nil_iff.2 fun d hd =>
      mt List.contains_iff_mem.1 (id_notMem_run hcells hn d hd)
    have hrun : run.filter (fun d => (run.map (·.id)).contains d.id) = run :=
      List.filter_eq_self.2 fun d hd => List.contains_iff_mem.2 (List.mem_map_of_mem hd)
    rw [hopen, hcells, List.filter_append, hbefore, hrun]
    exact if_pos (List.all_eq_true.2 fun d hd => beq_iff_eq.2 (hheld d hd))
  · refine if_neg fun hall => hstate (beq_iff_eq.1 (List.all_eq_true.1 hall c ?_))
    rw [hcells, List.append_nil]
    exact List.mem_filter.2 ⟨hc, List.contains_iff_mem.2 hopen⟩

theorem takeWhile_beforeRun : s.line.cells.takeWhile (fun d => !(run.map (·.id)).contains d.id) = before ∧
    s.line.cells.dropWhile (fun d => !(run.map (·.id)).contains d.id) = run := by
  have hpass : ∀ d ∈ before, (!(run.map (·.id)).contains d.id) = true := fun d hd =>
    Bool.not_eq_true' _ |>.mpr (Bool.eq_false_iff.2 (mt List.contains_iff_mem.1 (id_notMem_run hcells hn d hd)))
  rw [hcells, List.takeWhile_append_of_pos hpass, List.dropWhile_append_of_pos hpass]
  cases run with
  | nil => exact ⟨List.append_nil _, rfl⟩
  | cons c run =>
    have hstop : ¬(!((c :: run).map (·.id)).contains c.id) = true := by
      rw [List.contains_iff_mem.2 (List.mem_map_of_mem List.mem_cons_self)]
      exact Bool.false_ne_true
    rw [List.takeWhile_cons_of_neg (p := fun d : Cell => !((c :: run).map (·.id)).contains d.id) hstop,
      List.dropWhile_cons_of_neg (p := fun d : Cell => !((c :: run).map (·.id)).contains d.id) hstop]
    exact ⟨List.append_nil _, rfl⟩

end

/-! ### The state behind a wrap (R32) -/

/-- R179: an event changes the report queue, and reads nothing but the link. -/
theorem raise_of_link {t : State} {k : ReportKind} {r : Nat} {d : List Byte} (h : t.link = s.link) :
    raise k r d t = { t with link := (raise k r d s).link } := by
  unfold raise
  rw [h]
  split
  · rfl
  · rw [← h]

/-- R32: the LINE-END cell of a wrap. -/
def wrapEnd (before : List Cell) (s : State) : Cell :=
  plainCell s .lineEnd none ((before.getLast?.map Cell.stop).getD s.line.composing.leftMargin) 0

/-- R32: the state in which the old line has ended and the open word stands behind it, the cells given. -/
def lineMoved (e : LineEnding) (before : List Cell) (le : Cell) (aligned : Aligned) (cells : List Cell) (s : State) :
    State :=
  { (if aligned.abandoned = true then raise .line 2 [] s else s) with
    line := { s.line with
      cells := cells
      composing := { leftMargin := s.composer.format.leftMargin, ended := none, releasedFlush := false }
      paper := some { s.line.composing with
        ended := some { e with moved := decide (aligned.cells ≠ before ++ [le]) } } }
    composer := { s.composer with nextCellId := (le.id + 1) % 256 }
    zone := { s.zone with bellArmed := true }
    display := correctWindow (windowAfterInsert before.length s.display.windowStart) s }

/-- R32: the state behind the wrap, its new cell at the end of the list. -/
def lineWrapped (e : LineEnding) (before run : List Cell) (le c : Cell) (aligned : Aligned) (s : State) : State :=
  { lineMoved e before le aligned (aligned.cells ++ placeFrom s.composer.format.leftMargin run ++ [c]) s with
    composer := { s.composer with
      nextCellId := (c.id + 1) % 256, printPoint := c.stop, openRun := run.map (·.id) ++ [c.id] } }

theorem appendCell_lineMoved {e : LineEnding} {before run : List Cell} {le c : Cell} {aligned : Aligned}
    (hc : c.pastMargin = false) :
    appendCell c (run.map (·.id) ++ [c.id])
        (lineMoved e before le aligned (aligned.cells ++ placeFrom s.composer.format.leftMargin run) s) =
      lineWrapped e before run le c aligned s := by
  unfold appendCell lineWrapped
  rw [hc, Bool.not_false, Bool.and_true]
  rfl

section
variable {before run : List Cell} {e : LineEnding} {le : Cell} {aligned : Aligned}
  (hcells : s.line.cells = before ++ run) (hn : (s.line.cells.map (·.id)).Nodup)
  (hbefore : ∀ d ∈ before, d.kind ≠ .lineEnd) (he : lineEnding .byWrap s = e) (hle : wrapEnd before s = le)
  (haligned : alignLine s.line.composing.releasedFlush e (before ++ [le]) = aligned)
include hcells hn hbefore he hle haligned

theorem wrapLine_eq :
    wrapLine (run.map (·.id)) s = lineMoved e before le aligned (aligned.cells ++ run) s := by
  obtain ⟨htake, hdrop⟩ := takeWhile_beforeRun hcells hn
  have hend := endLine_eq (how := .byWrap) (before := before) (after := run) (le := le) (e := e)
    (s := { s with
      line := { s.line with cells := before ++ le :: run }
      composer := { s.composer with nextCellId := (le.id + 1) % 256 }
      display := correctWindow (windowAfterInsert before.length s.display.windowStart) s })
    rfl (hle ▸ rfl) hbefore he
  have hinsert : insertLineEnd le (run.map (·.id)) s.line.cells = before ++ le :: run := by
    unfold insertLineEnd
    rw [htake, hdrop, List.append_assoc]
    rfl
  have hstart : wrapStart s (run.map (·.id)) = (before.getLast?.map Cell.stop).getD s.line.composing.leftMargin := by
    unfold wrapStart
    rw [htake]
  unfold wrapLine
  dsimp only
  rw [hstart, htake, show plainCell s .lineEnd none _ 0 = le from hle, hinsert]
  refine hend.trans ?_
  rw [show alignLine _ e (before ++ [le]) = aligned from haligned]
  unfold lineMoved
  split
  · obtain ⟨l, hl⟩ := raise_link .line 2 [] s
    refine (raise_of_link (s := s) (by rfl)).trans ?_
    rw [hl]
    rfl
  · rfl

/-- R32: the open word is placed again from the new left margin. -/
theorem placeRun_wrapLine : placeRun (wrapLine (run.map (·.id)) s) =
    lineMoved e before le aligned (aligned.cells ++ placeFrom s.composer.format.leftMargin run) s := by
  have hkinds : aligned.cells.map (·.kind) = (before ++ [le]).map (·.kind) := by
    rw [← haligned]
    exact map_alignLine (fun _ _ _ => rfl) ..
  have hlast : le.kind = .lineEnd := hle ▸ rfl
  rw [wrapLine_eq hcells hn hbefore he hle haligned]
  unfold placeRun
  rw [show (lineMoved e before le aligned (aligned.cells ++ run) s).line.cells = aligned.cells ++ run from rfl,
    endedCells_of_kinds hkinds hlast hbefore, composingCells_of_kinds hkinds hlast hbefore]
  rfl

/-- R32: a wrap, told by its cells: the LINE-END cell and the new one. -/
theorem wrapGlyph_eq {kind : CellKind} {code : Byte} {start advance : Nat} {c : Cell} (hrun : wrapRun s = run)
    (hc : attributedCell (lineMoved e before le aligned
      (aligned.cells ++ placeFrom s.composer.format.leftMargin run) s) kind code start advance false = c) :
    wrapGlyph kind code start advance s = releaseLine le.id
      (spellCell c.id (spellLineEnd (judgeBell c (lineWrapped e before run le c aligned s)))) := by
  have hid : newCellId s = le.id := hle ▸ rfl
  have hpast : c.pastMargin = false := hc ▸ rfl
  unfold wrapGlyph
  dsimp only
  rw [hrun, placeRun_wrapLine hcells hn hbefore he hle haligned, hc, appendCell_lineMoved hpast, hid]

end

theorem lineWrapped_of_parts {e : LineEnding} {before run cells : List Cell} {le c : Cell} {aligned : Aligned}
    {composing : LineRecord} {paper : Option LineRecord} {composer : Composer} {display : Display}
    (hcells : cells = aligned.cells ++ placeFrom s.composer.format.leftMargin run ++ [c])
    (hcomposing : composing = { leftMargin := s.composer.format.leftMargin, ended := none, releasedFlush := false })
    (hpaper : paper = some { s.line.composing with
      ended := some { e with moved := decide (aligned.cells ≠ before ++ [le]) } })
    (hcomposer : composer = { s.composer with
      nextCellId := (c.id + 1) % 256, printPoint := c.stop, openRun := run.map (·.id) ++ [c.id] })
    (hdisplay : display = correctWindow (windowAfterInsert before.length s.display.windowStart) s) :
    { (if aligned.abandoned = true then raise .line 2 [] s else s) with
      line := { s.line with cells := cells, composing := composing, paper := paper }
      composer := composer
      zone := { s.zone with bellArmed := true }
      display := display } = lineWrapped e before run le c aligned s := by
  subst hcells hcomposing hpaper hcomposer hdisplay
  rfl

/-- R32: the move of the open word but for the report of a line left unaligned. -/
theorem lineMoved_link (e : LineEnding) (before : List Cell) (le : Cell) (aligned : Aligned) (cells : List Cell)
    (s : State) : ∃ l, lineMoved e before le aligned cells s =
      { s with
        link := l
        line := { s.line with
          cells := cells
          composing := { leftMargin := s.composer.format.leftMargin, ended := none, releasedFlush := false }
          paper := some { s.line.composing with
            ended := some { e with moved := decide (aligned.cells ≠ before ++ [le]) } } }
        composer := { s.composer with nextCellId := (le.id + 1) % 256 }
        zone := { s.zone with bellArmed := true }
        display := correctWindow (windowAfterInsert before.length s.display.windowStart) s } := by
  obtain ⟨l, hl⟩ := raise_link .line 2 [] s
  unfold lineMoved
  split
  · exact ⟨l, by rw [hl]⟩
  · exact ⟨s.link, rfl⟩

/-- R32: the state behind a wrap but for its reports. -/
theorem lineWrapped_link (e : LineEnding) (before run : List Cell) (le c : Cell) (aligned : Aligned) (s : State) :
    ∃ l, lineWrapped e before run le c aligned s =
      { s with
        link := l
        line := { s.line with
          cells := aligned.cells ++ placeFrom s.composer.format.leftMargin run ++ [c]
          composing := { leftMargin := s.composer.format.leftMargin, ended := none, releasedFlush := false }
          paper := some { s.line.composing with
            ended := some { e with moved := decide (aligned.cells ≠ before ++ [le]) } } }
        composer := { s.composer with
          nextCellId := (c.id + 1) % 256, printPoint := c.stop, openRun := run.map (·.id) ++ [c.id] }
        zone := { s.zone with bellArmed := true }
        display := correctWindow (windowAfterInsert before.length s.display.windowStart) s } := by
  obtain ⟨l, hl⟩ := lineMoved_link e before le aligned
    (aligned.cells ++ placeFrom s.composer.format.leftMargin run ++ [c]) s
  unfold lineWrapped
  rw [hl]
  exact ⟨l, rfl⟩

theorem getD_stop_eq (o : Option Cell) (left : Nat) :
    (o.map Cell.stop).getD left = match o with | some c => c.start + c.advance | none => left := by
  cases o <;> rfl

/-- R116: the bell of a new cell reaches the reports, the speaker and the bell's arming. -/
theorem judgeBell_parts {c : Cell} (hc : c.kind = .glyph ∨ c.kind = .composite) (hb : s.zone.bellArmed = true) :
    ∃ l x, judgeBell c s = { s with
      link := l, sounder := x
      zone := { s.zone with
        bellArmed := decide (c.start < s.composer.format.rightMargin - s.composer.format.bellZone) } } := by
  by_cases hz : s.composer.format.rightMargin - s.composer.format.bellZone ≤ c.start
  · rw [judgeBell_of_zone hc hz hb, decide_eq_false (Nat.not_lt.2 hz)]
    obtain ⟨x, hx⟩ := askSound_sounder .bell { s with zone := { s.zone with bellArmed := false } }
    rw [hx]
    obtain ⟨l, hl⟩ := raise_link .zone 3 _ { s with zone := { s.zone with bellArmed := false }, sounder := x }
    exact ⟨l, x, hl⟩
  · have hstart := Nat.not_le.1 hz
    refine ⟨s.link, s.sounder, (judgeBell_of_silent (.inl hstart)).trans ?_⟩
    rw [decide_eq_true hstart, ← hb]

/-- The placing of a run changes where its cells start, and nothing else. -/
theorem map_placeFrom {α : Type} {part : Cell → α} (hpart : ∀ c p, part { c with start := p } = part c) (p : Nat)
    (l : List Cell) : (placeFrom p l).map part = l.map part := by
  induction l generalizing p with
  | nil => rfl
  | cons c l ih => exact List.cons_eq_cons.2 ⟨hpart c p, ih _⟩

theorem getElem?_placeFrom {p i : Nat} {l : List Cell} {d : Cell} (h : l[i]? = some d) :
    (placeFrom p l)[i]? = some { d with start := p + ((l.take i).map (·.advance)).sum } := by
  induction l generalizing p i with
  | nil => exact absurd h (by simp)
  | cons c l ih =>
    cases i with
    | zero =>
      obtain rfl := Option.some.inj h
      rfl
    | succ i =>
      refine (ih h).trans ?_
      rw [List.take_succ_cons, List.map_cons, List.sum_cons, Nat.add_assoc]

/-! ### Which placement a wrapping item comes to (R30, R33) -/

section
variable {code : Byte} {kind : CellKind} {p a : Nat}

theorem takeGlyph_of_wrap (h : placeGlyph s code = .wrap kind p a) :
    takeGlyph code s = if lineFull s 2 then refuseLineFull code s else wrapGlyph kind code p a s := by
  unfold takeGlyph
  rw [h]

theorem takeGlyph_of_wrapRefused (h : placeGlyph s code = .wrapRefused p a) :
    takeGlyph code s = if lineFull s 2 then refuseLineFull code s else refuseRightStop p (p + a) code s := by
  unfold takeGlyph
  rw [h]

end

theorem placeGlyph_of_wrapping {code : Byte} {kind : CellKind} {run : List Cell} {a : Nat}
    (h : carries s.wheel code kind) (ha : glyphAdvance s.composer.format s.wheel code = a) (hrun : wrapRun s = run)
    (hover : s.composer.format.rightMargin < s.composer.printPoint + a) (hend : s.composer.printPoint + a ≤ 1800)
    (harm : s.composer.marginRelease = false) (hmode : s.composer.format.mode ≠ .direct)
    (hwrap : s.composer.format.wrap = true) (hfirst : inkBeforeOpenRun s ≠ false) : placeGlyph s code =
      if s.composer.format.rightMargin < s.composer.format.leftMargin + (run.map (·.advance)).sum + a then
        .wrapRefused s.composer.printPoint a
      else .wrap kind (s.composer.format.leftMargin + (run.map (·.advance)).sum) a := by
  have hplace := placeGlyph_of_kind (glyphKind_of_carries h)
  rw [ha, hrun] at hplace
  refine hplace.trans ((if_neg (Nat.not_le.2 hover)).trans ((if_neg (Nat.not_lt.2 hend)).trans
    ((if_neg (Bool.eq_false_iff.1 harm)).trans (if_neg ?_))))
  rintro (hdirect | hnowrap | hnone)
  · exact hmode hdirect
  · exact Bool.false_ne_true (hnowrap.symm.trans hwrap)
  · exact hfirst hnone

/-- Settles O40: a glyph item that reaches the wrap, by its room in the list and on the new line. -/
theorem glyph_item_wraps_the_open_word : Obligations.glyph_item_wraps_the_open_word := by
  unfold Obligations.glyph_item_wraps_the_open_word
  intro s code rest kind before run e hqueue hw hglyph hkind f p left a total hcells hn hbefore hopen hink hfirst hmode
    hwrap harm hover hend he le aligned ended c taken ends
  have hexec := exec_of_class (c := .glyphItem) (by decide) hglyph hqueue hw
  have ends_of {v : State} (h : takeGlyph code taken = v) : ends v := by
    subst h
    exact hexec
  have hcarries : carries taken.wheel code kind := hkind
  have hrun : wrapRun taken = run := wrapRun_eq (s := taken) hcells hn hopen
  have hkinds : ∀ d ∈ s.line.cells, d.kind ≠ .lineEnd := by
    rw [hcells]
    intro d hd hk
    rcases List.mem_append.1 hd with hd | hd
    · exact hbefore d hd hk
    · rcases hink d hd with h | h <;> exact CellKind.noConfusion (h.symm.trans hk)
  have hinkBefore : inkBeforeOpenRun taken ≠ false := by
    obtain ⟨d, hd, hdink, hdopen⟩ := hfirst
    refine fun hnone => hdopen (inkBeforeOpenRun_eq_false_iff.1 hnone d ?_ hdink)
    show d ∈ composingCells s.line.cells
    rw [composingCells_of_none hkinds, hcells]
    exact List.mem_append_left _ hd
  have hplace : placeGlyph taken code = if f.rightMargin < total + a then .wrapRefused p a else .wrap kind total a :=
    placeGlyph_of_wrapping hcarries rfl hrun hover hend harm hmode hwrap hinkBefore
  have hfull : lineFull taken 2 = true ↔ 198 < s.line.cells.length :=
    lineFull_iff.trans (Nat.add_lt_add_iff_right (n := 198) (k := 2))
  refine ⟨fun hroom => ends_of ?_, fun hroom hrefused => ends_of ?_, fun hroom hfits => ?_,
    length_placeFrom run f.leftMargin, fun i d h => getElem?_placeFrom h⟩
  · by_cases hrefused : f.rightMargin < total + a
    · exact (takeGlyph_of_wrapRefused (hplace.trans (if_pos hrefused))).trans (if_pos (hfull.2 hroom))
    · exact (takeGlyph_of_wrap (hplace.trans (if_neg hrefused))).trans (if_pos (hfull.2 hroom))
  · exact (takeGlyph_of_wrapRefused (hplace.trans (if_pos hrefused))).trans
      (if_neg (mt hfull.1 (Nat.not_lt.2 hroom)))
  · have hle : wrapEnd before taken = le := by
      unfold wrapEnd
      rw [plainCell_eq, getD_stop_eq, if_neg (show taken.composer.format.mode ≠ .direct from hmode)]
      rfl
    have haligned : alignLine taken.line.composing.releasedFlush e (before ++ [le]) = aligned := rfl
    have hended : ended = aligned.cells := by
      by_cases hm : f.mode = .line
      · exact if_pos hm
      · refine (if_neg hm).trans ?_
        rw [← haligned, alignLine_of_mode (by rw [he]; exact hm)]
    have hc : attributedCell (lineMoved e before le aligned (aligned.cells ++ placeFrom f.leftMargin run) taken) kind
        code total a false = c := by
      have hid : newCellId (lineMoved e before le aligned (aligned.cells ++ placeFrom f.leftMargin run) taken) =
          c.id := by
        show freeId ((le.id + 1) % 256) ((aligned.cells ++ placeFrom f.leftMargin run).map (·.id)) =
          freeId ((le.id + 1) % 256) ((ended ++ run).map (·.id))
        rw [hended, List.map_append, List.map_append, map_placeFrom fun _ _ => rfl]
      obtain ⟨l, hl⟩ := lineMoved_link e before le aligned (aligned.cells ++ placeFrom f.leftMargin run) taken
      rw [attributedCell_of_ink hcarries.isInk, hid, hl,
        if_neg (show taken.composer.format.mode ≠ .direct from hmode)]
    have hwrapped := wrapGlyph_eq (s := taken) hcells hn hbefore (he.symm ▸ rfl) hle haligned hrun hc
    have htake : takeGlyph code taken = _ := ((takeGlyph_of_wrap (hplace.trans (if_neg (Nat.not_lt.2 hfits)))).trans
      (if_neg (mt hfull.1 (Nat.not_lt.2 hroom)))).trans hwrapped
    obtain ⟨lw, hlw⟩ := lineWrapped_link e before run le c aligned taken
    generalize hwr : lineWrapped e before run le c aligned taken = wrapped at htake hlw
    obtain ⟨lb, x, hbell⟩ := judgeBell_parts (s := wrapped) (c := c) hcarries.isInk (by rw [hlw])
    have hwords : OnlyWords (judgeBell c wrapped) (spellCell c.id (spellLineEnd (judgeBell c wrapped))) :=
      (onlySpelling_spellLineEnd _).onlyWords.trans (onlyWords_spellCell ..)
    obtain ⟨l, sp, m, g, closed, hparts⟩ := releaseLine_onlyWords_parts le.id hwords
      (by rw [hbell, hlw]; exact hmode)
    generalize hv : releaseLine le.id (spellCell c.id (spellLineEnd (judgeBell c wrapped))) = v at hparts htake
    rw [hbell, hlw] at hparts
    have hmodeTold : (spellCell c.id (spellLineEnd (judgeBell c wrapped))).composer.format.mode ≠ .direct := by
      obtain ⟨l', sp', m', g', hwords⟩ := hwords
      rw [hwords, hbell, hlw]
      exact hmode
    refine ⟨v, ends_of htake, ?_, ?_, ?_, ?_, ?_, ?_, ?_, ?_, ?_, ?_, ?_, ?_⟩
    · rw [hparts, hended]
      refine (fixedPart_advanceTo ..).trans ?_
      rw [List.map_map]
      rfl
    · have hheld : ∀ d ∈ placeFrom f.leftMargin run ++ [c], d.state = .held := by
        intro d hd
        rcases List.mem_append.1 hd with hd | hd
        · have hstates : d.state ∈ run.map (·.state) :=
            map_placeFrom (part := (·.state)) (fun _ _ => rfl) f.leftMargin run ▸ List.mem_map_of_mem hd
          obtain ⟨b, hb, hbd⟩ := List.mem_map.1 hstates
          refine hbd ▸ hopen.elim (fun h => h.2 b hb) fun h => ?_
          rw [h.1] at hb
          exact absurd hb List.not_mem_nil
        · obtain rfl := List.mem_singleton.1 hd
          rfl
      obtain ⟨l', x', hsplit, hx', hl'⟩ := lineEnd_of_kinds (line := aligned.cells) (before := before) (e := le)
        (map_alignLine (fun _ _ _ => rfl) ..) rfl hbefore
      have hid : x'.id = le.id := by
        have hids : aligned.cells.map (·.id) = (before ++ [le]).map (·.id) := map_alignLine (fun _ _ _ => rfl) ..
        rw [hsplit, List.map_append, List.map_append] at hids
        exact (List.cons_eq_cons.1 (List.append_inj' hids rfl).2).1
      have hcomposing := held_behind_mark closed g hx' hl' hheld
      rw [hid, ← hsplit, ← List.append_assoc] at hcomposing
      rw [hparts]
      exact hcomposing
    · exact congrArg (·.line.releaseMark) hparts
    · exact congrArg (·.line.composing) hparts
    · rw [hended]
      exact congrArg (·.line.paper) hparts
    · exact congrArg (·.composer) hparts
    · exact congrArg (·.zone.bellArmed) hparts
    · exact congrArg (·.strikeQueue) hparts
    · exact congrArg (·.engine) hparts
    · exact congrArg (·.wheel) hparts
    · exact congrArg (·.chip) hparts
    · intro d ws u belled told
      have hu : u = wrapped := by
        refine (lineWrapped_of_parts (s := taken) (e := e) (before := before) (run := run) (le := le) (c := c)
          (aligned := aligned) ?_ (congrArg (·.line.composing) hparts) (congrArg (·.line.paper) hparts)
          (congrArg (·.composer) hparts) (correctWindow_eq _).symm).trans hwr
        rw [hended]
      have hbelled : belled = judgeBell c wrapped := by
        have hformat : wrapped.composer.format = f := by rw [hlw]
        have hleft : wrapped.line.composing.leftMargin = f.leftMargin := by rw [hlw]
        have hpoint : wrapped.composer.printPoint = total + a := by
          rw [hlw]
          rfl
        by_cases hz : f.rightMargin - f.bellZone ≤ total
        · have hring := judgeBell_of_zone (s := wrapped) (c := c) hcarries.isInk (hformat.symm ▸ hz) (by rw [hlw])
          rw [hleft, hpoint, ← hu] at hring
          exact (if_pos hz).trans (hring.symm.trans (congrArg (judgeBell c) hu))
        · exact (if_neg hz).trans (hu.trans (judgeBell_of_silent (s := wrapped) (c := c)
            (.inl (hformat.symm ▸ Nat.not_le.1 hz))).symm)
      have htold : told = spellCell c.id (spellLineEnd (judgeBell c wrapped)) :=
        congrArg (fun b => spellCell c.id (spellLineEnd b)) hbelled
      rw [htold, ← hv]
      exact (releaseLine_eq ..).trans (if_neg hmodeTold)

end Wrap

end Sys2Proof.Machine
